-- ==== Sys2Proof/Word.lean ====
section
/-! DEFINITION. The words of the block: bytes, byte sequences and the 32-bit result word (00_scope.md R8, R9). -/

namespace Sys2Proof

/-- R8: "A **byte** is an unsigned integer in 0..255". -/
abbrev Byte := BitVec 8

/-- R9: a byte sequence, index 0 first on the wire. -/
abbrev Bytes := List Byte

/-- R27: the width of RES. -/
abbrev Word32 := BitVec 32

end Sys2Proof
end

