-- ==== Sys2Proof/Machine/Fields.lean ====
section
/-! DEFINITION. The fields of a command word (30_encoding.md R61) and the bytes of a script's text (R70). -/

namespace Sys2Proof

/-- R61: `grp` is bits [7:4] of the command word. -/
def CommandWord.grp (w : Byte) : BitVec 4 := w.extractLsb' 4 4

/-- R61: `fn` is bits [3:0] of the command word. -/
def CommandWord.fn (w : Byte) : BitVec 4 := w.extractLsb' 0 4

namespace Machine

/-- R70: in `LOAD ARG, "text"` "only characters with codes 0x00..0xFF may appear". -/
def textIsBytes (text : List Char) : Bool := text.all fun ch => ch.toNat < 256

/-- R70: the character codes of the text, one byte each. -/
def textBytes (text : List Char) : Bytes := text.map fun ch => BitVec.ofNat 8 ch.toNat

end Machine
end Sys2Proof
end

