-- ==== Sys2Proof/Config.lean ====
section
/-! DEFINITION. The configuration of a block (00_scope.md R6, 10_state.md R32): the parameters the spec leaves OPEN, as
one constant without a body. -/

namespace Sys2Proof

/-- The parameters of R6. The proof fields are the legality conditions of 70_reset_and_hazards.md R231 ("The
configuration is fixed before reset and is legal"). Defaults of SOX, EOX and INQ_ID are those of R6; the others only show
that a legal configuration exists, and nothing can be proved of `Config.device` from any of them (log entries 4 to 7). -/
structure Config where
  /-- SysEx start byte -/
  sox : Byte := 0xF0
  /-- SysEx terminator byte; no rule of the block compares against it (92_eei_decisions.md D3) -/
  eox : Byte := 0xF7
  /-- manufacturer id, byte 0 of 4 (R7) -/
  mfr0 : Byte := 0x00
  mfr1 : Byte := 0x00
  mfr2 : Byte := 0x00
  mfr3 : Byte := 0x00
  /-- the id bytes of the Device Inquiry Reply prefix -/
  inqId : Bytes := [mfr0, mfr1, mfr2, mfr3]
  /-- width of FP -/
  fpBits : Nat := 1
  /-- the content hash: total and deterministic, nothing else (42_metadata.md R169) -/
  fpHash : Bytes → BitVec fpBits := fun _ => 0
  /-- capacity of MSG in bytes -/
  maxMsgLen : Nat := 30
  /-- capacity of ARG in bytes -/
  maxArgLen : Nat := 16
  mfr0_ne : mfr0 ≠ 0x7E := by decide
  fpBits_pos : 0 < fpBits := by decide
  maxMsgLen_ge : 30 ≤ maxMsgLen := by decide
  maxArgLen_ge : 16 ≤ maxArgLen := by decide
  deriving Inhabited

/-- The configuration of the block being modelled: any legal one. It has no body, so no proof can see a value of it and
every theorem about the machine holds for every legal configuration. -/
opaque Config.device : Config

end Sys2Proof
end

