-- ==== Sys2Proof/Syntax.lean ====
section
/-! DEFINITION. The twelve commands (30_encoding.md R62, one constructor per row of opcode_table.json). No command has an
operand field (R60, R63). -/

namespace Sys2Proof

/-- The commands of R62. -/
inductive Instr where
  /-- ISEBD, R110: is MSG an edit-buffer dump -/
  | isebd
  /-- ISPD, R111: is MSG a single-program dump -/
  | ispd
  /-- ISBANKPART, R112: is MSG part of a bank dump -/
  | isbankpart
  /-- MATCHREPLY, R113: is MSG the reply to a device inquiry -/
  | matchreply
  /-- CLASSIFY, R114: the MessageKind of MSG -/
  | classify
  /-- PACK7, R140 -/
  | pack7
  /-- UNPACK7, R141: no length check -/
  | unpack7
  /-- UNPACK7S, R142: with the length precondition -/
  | unpack7s
  /-- GETNAME, R163 -/
  | getname
  /-- GETNUM, R164 -/
  | getnum
  /-- RENAME, R166 -/
  | rename
  /-- FPRINT, R170 -/
  | fprint
  deriving DecidableEq, Repr

end Sys2Proof
end

