-- ==== Sys2Proof/Machine/Script.lean ====
section
/-! DEFINITION. The host's side: the interface registers by name (10_state.md R22) and the lines of a host script
(30_encoding.md R70, R71). -/

namespace Sys2Proof.Machine

/-- R22: the seven interface registers. -/
inductive Reg where
  | cmd | msg | arg | out | res | fp | status
  deriving DecidableEq, Repr

/-- R22: the registers the host may only read. -/
inductive ResultReg where
  | out | res | fp | status
  deriving DecidableEq, Repr

/-- What an access moves, by the register's width (R22). -/
inductive RegValue where
  /-- CMD and STATUS, 8 bits -/
  | byte (v : Byte)
  /-- MSG, ARG and OUT, byte sequences -/
  | bytes (v : Bytes)
  /-- RES, 32 bits -/
  | word (v : Word32)
  /-- FP, FP_BITS bits -/
  | print (v : BitVec Config.device.fpBits)
  deriving DecidableEq, Repr

/-- One line of a host script (R70), and R71's `MOVE MSG, OUT`, as data (log entry 19). -/
inductive ScriptLine where
  /-- `<MNEMONIC>`: write CMD with that command's code -/
  | command (i : Instr)
  /-- `CMD 0xNN`: write CMD with any code, legal or not -/
  | cmd (code : Byte)
  /-- `LOAD MSG, [b0, b1, ...]` -/
  | loadMsg (data : Bytes)
  /-- `LOAD ARG, [b0, b1, ...]` -/
  | loadArg (data : Bytes)
  /-- `LOAD ARG, "text"`: the character codes of the text, one byte each -/
  | loadArgText (text : List Char)
  /-- `READ <reg>` -/
  | read (r : Reg)
  /-- `RESET` -/
  | reset
  /-- the pseudo-instruction `MOVE MSG, OUT` (R71) -/
  | moveMsgOut
  /-- a host write to a read-only register: R22 names the access and R70 has no line for it (log entry 12) -/
  | writeResult (r : ResultReg) (v : RegValue)
  deriving DecidableEq, Repr

end Sys2Proof.Machine
end

