-- ==== Sys2Proof/WellFormed.lean ====
section
/-! DEFINITION. Which command words, commands and script lines are well formed (30_encoding.md R61, R62, R64, R70). -/

namespace Sys2Proof

/-- R61: "0x1 classifier, 0x2 bit codec, 0x3 patch metadata; every other value is reserved". -/
def CommandWord.grpDefined (w : Byte) : Bool := 1 ≤ (grp w).toNat && (grp w).toNat ≤ 3

/-- R62: how many functions each group has. -/
def CommandWord.fnDefined (w : Byte) : Bool :=
  match (grp w).toNat with
  | 1 => (fn w).toNat < 5
  | 2 => (fn w).toNat < 3
  | 3 => (fn w).toNat < 4
  | _ => false

/-- A command word that R62 lists. Every other value is reserved (R64). -/
def CommandWord.wf (w : Byte) : Bool := grpDefined w && fnDefined w

/-- R60, R63: a command has no operand field, so nothing about one can be ill formed. -/
def Instr.wf : Instr → Bool := fun _ => true

namespace Machine

/-- R70: a line that may stand in a host script. -/
def ScriptLine.wf : ScriptLine → Bool
  | .loadArgText text => textIsBytes text
  | .command i => i.wf
  | .cmd _ | .loadMsg _ | .loadArg _ | .read _ | .reset | .moveMsgOut | .writeResult _ _ => true

/-- R24, R25: what a line loads fits its buffer. A line that does not fit is a fault of the host script. -/
def ScriptLine.fits (c : Config) : ScriptLine → Bool
  | .loadMsg data => data.length ≤ c.maxMsgLen
  | .loadArg data => data.length ≤ c.maxArgLen
  | .loadArgText text => text.length ≤ c.maxArgLen
  | .command _ | .cmd _ | .read _ | .reset | .moveMsgOut | .writeResult _ _ => true

end Machine
end Sys2Proof
end

