-- ==== Sys2Proof/Decode.lean ====
section
/-! DEFINITION. Decoding and encoding of command words (30_encoding.md R60 to R65). The decoder reads the fields of R61;
the encoder writes the codes of R62. -/

namespace Sys2Proof

/-- Why bytes are no command. -/
inductive Reject where
  /-- R64: a reserved code; writing it to CMD runs the illegal command (safe: the block ends it with a status) -/
  | reservedCode (code : Byte)
  /-- no byte to decode: no CMD write can give this -/
  | noWord
  deriving DecidableEq, Repr

/-- Group 0x1, the classifier (R62). -/
def decodeClassifier : Nat → Option Instr
  | 0 => some .isebd
  | 1 => some .ispd
  | 2 => some .isbankpart
  | 3 => some .matchreply
  | 4 => some .classify
  | _ => none

/-- Group 0x2, the bit codec (R62). -/
def decodeCodec : Nat → Option Instr
  | 0 => some .pack7
  | 1 => some .unpack7
  | 2 => some .unpack7s
  | _ => none

/-- Group 0x3, patch metadata (R62). -/
def decodeMetadata : Nat → Option Instr
  | 0 => some .getname
  | 1 => some .getnum
  | 2 => some .rename
  | 3 => some .fprint
  | _ => none

/-- R61: the group selects the table, the function the row; every other group is reserved. -/
def decodeFields (grp fn : Nat) : Option Instr :=
  match grp with
  | 1 => decodeClassifier fn
  | 2 => decodeCodec fn
  | 3 => decodeMetadata fn
  | _ => none

/-- R60: "A decoder reads all 8 bits and needs no other bits"; R65: the meaning never depends on earlier commands. -/
def decode (w : Byte) : Except Reject Instr :=
  match decodeFields (CommandWord.grp w).toNat (CommandWord.fn w).toNat with
  | some i => .ok i
  | none => .error (.reservedCode w)

/-- Decoding at the head of any byte list: there is one length, one byte (R60). -/
def decodeBytes : Bytes → Except Reject (Instr × Bytes)
  | [] => .error .noWord
  | w :: rest =>
    match decode w with
    | .ok i => .ok (i, rest)
    | .error e => .error e

/-- R62: the code of each command. -/
def encode : Instr → Byte
  | .isebd => 0x10
  | .ispd => 0x11
  | .isbankpart => 0x12
  | .matchreply => 0x13
  | .classify => 0x14
  | .pack7 => 0x20
  | .unpack7 => 0x21
  | .unpack7s => 0x22
  | .getname => 0x30
  | .getnum => 0x31
  | .rename => 0x32
  | .fprint => 0x33

/-- The instruction the decoder reads from a table row's bits. A command is one byte (R60), so a row has at most 8 bits
and the bits above `nbits` are 0 (log entry 16). -/
def decodeTableWord (nbits w : Nat) : Option Instr :=
  if nbits ≤ 8 ∧ w < 2 ^ nbits then
    match decodeBytes [BitVec.ofNat 8 w] with
    | .ok (i, _) => some i
    | .error _ => none
  else none

end Sys2Proof
end

