-- ==== Sys2Proof/Machine/Constants.lean ====
section
/-! DEFINITION. The constants the source fixes (00_scope.md R6, R7) and the capacity derived from the configuration
(10_state.md R26). -/

namespace Sys2Proof

/-- R7: the manufacturer id is 4 bytes long. -/
def Config.mfr (c : Config) : Bytes := [c.mfr0, c.mfr1, c.mfr2, c.mfr3]

/-- R26: `MAX_OUT_LEN = MAX_MSG_LEN + (MAX_MSG_LEN div 7) + 1`. -/
def Config.maxOutLen (c : Config) : Nat := c.maxMsgLen + c.maxMsgLen / 7 + 1

/-- R6 `EBD_HDR`. -/
def ebdHdr : Nat := 7
/-- R6 `PD_HDR`. -/
def pdHdr : Nat := 8
/-- R6 `PD_PREFIX_LEN`: the bytes `isSingleProgramDump` compares. -/
def pdPrefixLen : Nat := 6
/-- R6 `NAME_OFF`. -/
def nameOff : Nat := 2
/-- R6 `NAME_LEN`. -/
def nameLen : Nat := 16
/-- R6 `BANK_SIZE`. -/
def bankSize : Nat := 128
/-- R6 `BANK_COUNT`; no command checks a bank number against it (42_metadata.md R164). -/
def bankCount : Nat := 16
/-- R6 `PAD`: a space, whose code 0x20 the spec takes from general knowledge (93_implementation_defined.md G3). -/
def padByte : Byte := 0x20

end Sys2Proof
end

