-- ==== Sys2Proof/Machine/State.lean ====
section
/-! DEFINITION. The state of the block and of the host script that drives it (10_state.md R22, R33), the reasons a step
stops, and how a command ends (60_exceptions.md R200 to R202). -/

namespace Sys2Proof.Machine

/-- The seven interface registers of R22, then two fields of the model's own. R33: "No other state exists". OUT, RES, FP
and STATUS hold no value (`none`) until the first command ends: that is the spec's own state of them (R30, R33; log
entry 3). -/
structure State where
  /-- CMD, 8 bits (R23) -/
  cmd : Byte
  /-- MSG (R24), a whole byte sequence: there is no address space (20_memory.md R40, R49; log entry 17) -/
  msg : Bytes
  /-- ARG (R25) -/
  arg : Bytes
  /-- OUT (R26) -/
  out : Option Bytes
  /-- RES, 32 bits (R27) -/
  res : Option Word32
  /-- FP, FP_BITS bits (R28) -/
  fp : Option (BitVec Config.device.fpBits)
  /-- STATUS, 8 bits (R29) -/
  status : Option Byte
  /-- MODEL'S OWN: the host-script lines still to be performed (R70; log entry 1) -/
  script : List ScriptLine
  /-- MODEL'S OWN: what the host's READ lines returned, oldest first (R70; log entry 2) -/
  reads : List (Reg × RegValue)
  deriving DecidableEq, Repr

/-- R33. The script and the reads are empty: a program is loaded from outside (log entry 1). -/
def State.reset : State where
  cmd := 0x00
  msg := []
  arg := []
  out := none
  res := none
  fp := none
  status := none
  script := []
  reads := []

/-- The faults of the host script (log entries 8 and 18). None is raised by a command. -/
inductive Fault where
  /-- a READ of a register that holds no value, the fault R30, 93_implementation_defined.md V4 and program P5 name; raised
  by a READ line, and by MOVE MSG, OUT (R71), never by a command; safe -/
  | noValue (r : Reg)
  /-- a host write of more than MAX_MSG_LEN bytes to MSG (R24, R71, U11); raised by a LOAD MSG line; safe -/
  | msgTooLong
  /-- a host write of more than MAX_ARG_LEN bytes to ARG (R25, U11); raised by a LOAD ARG line; safe -/
  | argTooLong
  deriving DecidableEq, Repr

/-- The refusals. -/
inductive Refusal where
  /-- an instruction without a meaning yet; raised by exec's arms only, and no arm raises it; safe -/
  | notModelled (mnemonic : String)
  /-- `LOAD ARG, "text"` with a character above 0xFF, which R70 does not let stand in a script (log entry 9); safe -/
  | textNotBytes
  deriving DecidableEq, Repr

/-- R202: the error statuses a command can end with. -/
inductive ErrorStatus where
  | unsupportedShape
  | malformedMessage
  | codecPrecondition
  | illegalCommand
  deriving DecidableEq, Repr

/-- What a command's pseudocode gave to OUT, RES and FP (R200), for an FP of `w` bits. -/
structure Results (w : Nat) where
  out : Bytes
  res : Word32
  fp : BitVec w
  deriving DecidableEq, Repr

/-- How a command ends: `raise X` (R201), or `finish` with its results (R200). -/
abbrev Ending (w : Nat) := Except ErrorStatus (Results w)

end Sys2Proof.Machine
end

