-- ==== Sys2Proof/Machine/Flags.lean ====
section
/-! DEFINITION. STATUS, the block's only flag (10_state.md R29, 60_exceptions.md R202), and the layout of RES
(10_state.md R27). -/

namespace Sys2Proof.Machine

/-- R202: OK. -/
def statusOK : Byte := 0

/-- R202: the codes of the error statuses. -/
def ErrorStatus.code : ErrorStatus → Byte
  | .unsupportedShape => 1
  | .malformedMessage => 2
  | .codecPrecondition => 3
  | .illegalCommand => 4

/-- R27: RES of a predicate command, bit 0 the result and every other bit 0. -/
def resPredicate (b : Bool) : Word32 := if b then 1 else 0

/-- R27, R114: RES of CLASSIFY, `zext_32(program << 16 | bank << 8 | tag)`. -/
def resKind (tag bank program : Byte) : Word32 :=
  (program.setWidth 32 <<< 16) ||| (bank.setWidth 32 <<< 8) ||| tag.setWidth 32

/-- R27, R164: RES of GETNUM, the slot number `bank*128+program` on raw bytes. -/
def resSlot (bank program : Byte) : Word32 := BitVec.ofNat 32 (bank.toNat * bankSize + program.toNat)

end Sys2Proof.Machine
end

