-- ==== Sys2Proof/Machine/Ops.lean ====
section
/-! DEFINITION. Operations on byte sequences (00_scope.md R9, R10) and on the registers: how every command ends, with
`finish` or with `raise` (60_exceptions.md R200, R201, R204). -/

namespace Sys2Proof.Machine

/-- R9: the slice `S[a..b)`, empty past the end. -/
def slice (S : Bytes) (a b : Nat) : Bytes := (S.take b).drop a

/-- R9: `S with [a..b) := T`, where |T| = b - a. -/
def overwrite (S : Bytes) (a : Nat) (T : Bytes) : Bytes := S.take a ++ T ++ S.drop (a + T.length)

/-- R9: `startsWith(S, T)`. -/
def startsWith (S T : Bytes) : Bool := T.isPrefixOf S

/-- R9: `rep(v, k)`. -/
def rep (v : Byte) (k : Nat) : Bytes := List.replicate k v

/-- R10: `S[i]`. R41: every rule that reads it tests the length first, so the default is never reached (log entry 13). -/
def byteAt (S : Bytes) (i : Nat) : Byte := S.getD i 0

/-- R8: `mask(k) = 2^k - 1`, for k ≤ 8. -/
def mask (k : Nat) : Byte := BitVec.ofNat 8 (2 ^ k - 1)

/-- R47: OUT, RES, FP and STATUS are written together. -/
def State.writeResults (s : State) (r : Results Config.device.fpBits) (status : Byte) : State :=
  { s with out := some r.out, res := some r.res, fp := some r.fp, status := some status }

/-- R200: `finish`. MSG, ARG and CMD are unchanged. -/
def State.finish (s : State) (r : Results Config.device.fpBits) : State := s.writeResults r statusOK

/-- R201: `raise X`, the block's one way of taking an error: no trap, no saved state (R206). -/
def State.raise (s : State) (e : ErrorStatus) : State :=
  s.writeResults { out := [], res := 0, fp := 0 } e.code

/-- A command ends once, with `finish` or with `raise` (R205). There is no return from an error (R207). -/
def State.endCommand (s : State) (e : Ending Config.device.fpBits) : State :=
  match e with
  | .ok r => s.finish r
  | .error x => s.raise x

/-- R204: the illegal command reads nothing and raises IllegalCommand. -/
def execIllegal (s : State) : Host.Outcome State Fault Refusal := .next (s.raise .illegalCommand)

end Sys2Proof.Machine
end

