-- ==== Sys2Proof/Machine/Operands.lean ====
section
/-! DEFINITION. The operands of the commands. They are implicit (30_encoding.md R63): MSG, ARG, the preambles built from
the configuration (40_classifier.md R101), the data block of a dump (42_metadata.md R160) and the name built from ARG
(R165). -/

namespace Sys2Proof.Machine

/-- R101 `EBD_PRE`, 7 bytes. -/
def ebdPre (c : Config) : Bytes := [c.sox] ++ c.mfr ++ [0x02, 0x10]

/-- R101 `PD_PRE`, 6 bytes. -/
def pdPre (c : Config) : Bytes := [c.sox] ++ c.mfr ++ [0x00]

/-- R101 `INQ_PRE`, 10 + |INQ_ID| bytes. -/
def inqPre (c : Config) : Bytes :=
  [c.sox, 0x7E, 0x7F, 0x06, 0x02, 0x00, 0x00] ++ c.inqId ++ [0x00, 0x00, 0x00]

/-- R101 `BDR_PRE`, 6 bytes. -/
def bdrPre (c : Config) : Bytes := [c.sox] ++ c.mfr ++ [0x0A]

/-- R107: the shapes the metadata commands act on. -/
inductive Shape where
  | ebd | pd | other
  deriving DecidableEq, Repr

/-- R160: `hdr`, defined for the two dump shapes only. -/
def Shape.hdr : Shape → Option Nat
  | .pd => some pdHdr
  | .ebd => some ebdHdr
  | .other => none

/-- R160: `S[hdr .. |S| - 1)`: the last byte is excluded whatever its value (90_conflicts.md C9). -/
def dataBlock (hdr : Nat) (S : Bytes) : Bytes := slice S hdr (S.length - 1)

/-- R165: `take(16, take(16, A) ++ rep(0x20, 16))`. -/
def padName (A : Bytes) : Bytes := (A.take nameLen ++ rep padByte nameLen).take nameLen

end Sys2Proof.Machine
end

