-- ==== Sys2Proof/Machine/Classifier.lean ====
section
/-! DEFINITION. The message classifier: ISEBD, ISPD, ISBANKPART, MATCHREPLY, CLASSIFY (40_classifier.md). None of them
ends with an error status (R102). -/

namespace Sys2Proof.Machine

/-- R103. -/
def isEBD (c : Config) (S : Bytes) : Bool := decide (S.length > 6) && startsWith S (ebdPre c)

/-- R104. -/
def isPD (c : Config) (S : Bytes) : Bool := decide (S.length > 5) && startsWith S (pdPre c)

/-- R105. -/
def inqMatch (c : Config) (S : Bytes) : Bool := startsWith S (inqPre c)

/-- R106. -/
def isBDR (c : Config) (S : Bytes) : Bool := decide (S.length > 6) && startsWith S (bdrPre c)

/-- R107. -/
def shape (c : Config) (S : Bytes) : Shape :=
  if isEBD c S then .ebd else if isPD c S then .pd else .other

/-- 00_scope.md glossary, R108: the tagged MessageKind. -/
inductive MessageKind where
  | unknown
  | deviceInquiryReply
  | editBufferDump
  | programDump (bank program : Byte)
  | bankDumpRequest (bank : Byte)
  deriving DecidableEq, Repr

/-- R109: the first test that holds. A short program dump is Unknown (90_conflicts.md C3). -/
def kind (c : Config) (S : Bytes) : MessageKind :=
  if inqMatch c S then .deviceInquiryReply
  else if isEBD c S then .editBufferDump
  else if isPD c S && decide (S.length ≥ 8) then .programDump (byteAt S 6) (byteAt S 7)
  else if isBDR c S then .bankDumpRequest (byteAt S 6)
  else .unknown

/-- R108: the kind tag, RES[3:0]. -/
def MessageKind.tag : MessageKind → Byte
  | .unknown => 0
  | .deviceInquiryReply => 1
  | .editBufferDump => 2
  | .programDump _ _ => 3
  | .bankDumpRequest _ => 4

/-- R108: the bank field, RES[15:8]. -/
def MessageKind.bank : MessageKind → Byte
  | .programDump bank _ => bank
  | .bankDumpRequest bank => bank
  | .unknown | .deviceInquiryReply | .editBufferDump => 0

/-- R108: the program field, RES[23:16]. -/
def MessageKind.program : MessageKind → Byte
  | .programDump _ program => program
  | .unknown | .deviceInquiryReply | .editBufferDump | .bankDumpRequest _ => 0

/-- R102: a classifier command always finishes, with RES its result, OUT empty and FP zero. -/
def classified (w : Nat) (res : Word32) : Ending w := .ok { out := [], res := res, fp := 0 }

/-- R110 ISEBD. -/
def isebdEnding (c : Config) (msg : Bytes) : Ending c.fpBits := classified _ (resPredicate (isEBD c msg))

/-- R111 ISPD. -/
def ispdEnding (c : Config) (msg : Bytes) : Ending c.fpBits := classified _ (resPredicate (isPD c msg))

/-- R112 ISBANKPART: the same predicate as ISPD. -/
def isbankpartEnding (c : Config) (msg : Bytes) : Ending c.fpBits := classified _ (resPredicate (isPD c msg))

/-- R113 MATCHREPLY. -/
def matchreplyEnding (c : Config) (msg : Bytes) : Ending c.fpBits := classified _ (resPredicate (inqMatch c msg))

/-- R114 CLASSIFY. -/
def classifyEnding (c : Config) (msg : Bytes) : Ending c.fpBits :=
  let k := kind c msg
  classified _ (resKind k.tag k.bank k.program)

/-- R110 ISEBD. -/
def execIsebd (s : State) : Host.Outcome State Fault Refusal :=
  .next (s.endCommand (isebdEnding Config.device s.msg))

/-- R111 ISPD. -/
def execIspd (s : State) : Host.Outcome State Fault Refusal :=
  .next (s.endCommand (ispdEnding Config.device s.msg))

/-- R112 ISBANKPART. -/
def execIsbankpart (s : State) : Host.Outcome State Fault Refusal :=
  .next (s.endCommand (isbankpartEnding Config.device s.msg))

/-- R113 MATCHREPLY. -/
def execMatchreply (s : State) : Host.Outcome State Fault Refusal :=
  .next (s.endCommand (matchreplyEnding Config.device s.msg))

/-- R114 CLASSIFY. -/
def execClassify (s : State) : Host.Outcome State Fault Refusal :=
  .next (s.endCommand (classifyEnding Config.device s.msg))

end Sys2Proof.Machine
end

