-- ==== Sys2Proof/Machine/Codec.lean ====
section
/-! DEFINITION. The bit codec: the functions `unpack7` and `pack7` (41_codec.md R131, R132) and the commands PACK7,
UNPACK7 and UNPACK7S. The scan index of the rules is the suffix of the input still to be read. Byte arithmetic stays in 8
bits, which loses nothing here (log entry 14). -/

namespace Sys2Proof.Machine

/-- R131: one output byte, `7-r` bits from the first packed byte and `r+1` bits from the second (90_conflicts.md C1).
Bit 7 of both is masked off (92_eei_decisions.md D11). -/
def unpackByte (r : Nat) (first second : Byte) : Byte :=
  let lo := (first >>> r) &&& mask (7 - r)
  let hi := second &&& mask (r + 1)
  lo ||| (hi <<< (7 - r))

/-- R131: the loop of `unpack7` from rolling offset `r`, over what is left of P. It stops one byte before the end; when
`r` wraps, both bytes are consumed. -/
def unpack7From (r : Nat) : Bytes → Bytes
  | first :: second :: rest =>
    unpackByte r first second ::
      (if r + 1 = 7 then unpack7From 0 rest else unpack7From (r + 1) (second :: rest))
  | [_] => []
  | [] => []

/-- R131 `unpack7`. -/
def unpack7 (P : Bytes) : Bytes := unpack7From 0 P

/-- R132: the loop of `pack7` from `rollOver` and `carry`, over what is left of U, then the unconditional final flush. -/
def pack7From (rollOver : Nat) (carry : Byte) : Bytes → Bytes
  | u :: rest =>
    ((carry ||| (u <<< (7 - rollOver))) &&& 0x7F) ::
      (if rollOver - 1 = 0 then (u >>> rollOver) :: pack7From 7 0 rest
       else pack7From (rollOver - 1) (u >>> rollOver) rest)
  | [] => [carry]

/-- R132 `pack7`. -/
def pack7 (U : Bytes) : Bytes := pack7From 7 0 U

/-- R139: `strictLenOK(n) = (n mod 8 ≠ 0)` (90_conflicts.md C2). -/
def strictLenOK (n : Nat) : Bool := n % 8 != 0

/-- R140 PACK7. -/
def pack7Ending (c : Config) (msg : Bytes) : Ending c.fpBits := .ok { out := pack7 msg, res := 0, fp := 0 }

/-- R141 UNPACK7. -/
def unpack7Ending (c : Config) (msg : Bytes) : Ending c.fpBits := .ok { out := unpack7 msg, res := 0, fp := 0 }

/-- R142 UNPACK7S. -/
def unpack7sEnding (c : Config) (msg : Bytes) : Ending c.fpBits :=
  if strictLenOK msg.length then .ok { out := unpack7 msg, res := 0, fp := 0 } else .error .codecPrecondition

/-- R140 PACK7. -/
def execPack7 (s : State) : Host.Outcome State Fault Refusal :=
  .next (s.endCommand (pack7Ending Config.device s.msg))

/-- R141 UNPACK7. -/
def execUnpack7 (s : State) : Host.Outcome State Fault Refusal :=
  .next (s.endCommand (unpack7Ending Config.device s.msg))

/-- R142 UNPACK7S. -/
def execUnpack7s (s : State) : Host.Outcome State Fault Refusal :=
  .next (s.endCommand (unpack7sEnding Config.device s.msg))

end Sys2Proof.Machine
end

