-- ==== Sys2Proof/Machine/Metadata.lean ====
section
/-! DEFINITION. Patch metadata: GETNAME, GETNUM, RENAME and FPRINT (42_metadata.md). -/

namespace Sys2Proof.Machine

/-- R161: PatchData of a message whose header is `hdr` bytes, by the unchecked `unpack7` (92_eei_decisions.md D13). -/
def patchData (hdr : Nat) (S : Bytes) : Bytes := unpack7 (dataBlock hdr S)

/-- R162: a command that reads or writes the name field needs 18 bytes of PatchData. -/
def nameFieldEnd : Nat := nameOff + nameLen

/-- R160 to R162: the header length and the PatchData of a dump that carries a name field. UnsupportedShape comes before
MalformedMessage (60_exceptions.md R205). -/
def namedDump (c : Config) (S : Bytes) : Except ErrorStatus (Nat × Bytes) :=
  match (shape c S).hdr with
  | none => .error .unsupportedShape
  | some h => if (patchData h S).length < nameFieldEnd then .error .malformedMessage else .ok (h, patchData h S)

/-- R162: the name field, bytes 2 to 17. -/
def nameField (U : Bytes) : Bytes := slice U nameOff nameFieldEnd

/-- R166: `U with [2 .. 18) := name`, for a name of 16 bytes. -/
def withName (U name : Bytes) : Bytes := overwrite U nameOff name

/-- R168: PatchData with the name field zeroed. -/
def fpInput (U : Bytes) : Bytes := withName U (rep 0x00 nameLen)

/-- R166: the renamed message: header and last byte unchanged, the data re-packed between them. -/
def renamed (h : Nat) (S U A : Bytes) : Bytes :=
  slice S 0 h ++ pack7 (withName U (padName A)) ++ [byteAt S (S.length - 1)]

/-- R163 GETNAME. -/
def getnameEnding (c : Config) (msg : Bytes) : Ending c.fpBits :=
  match namedDump c msg with
  | .error e => .error e
  | .ok (_, U) => .ok { out := nameField U, res := 0, fp := 0 }

/-- R164 GETNUM. -/
def getnumEnding (c : Config) (msg : Bytes) : Ending c.fpBits :=
  match shape c msg with
  | .ebd => .ok { out := [], res := 0, fp := 0 }
  | .pd =>
    if msg.length < 8 then .error .malformedMessage
    else .ok { out := [], res := resSlot (byteAt msg 6) (byteAt msg 7), fp := 0 }
  | .other => .error .unsupportedShape

/-- R166 RENAME. -/
def renameEnding (c : Config) (msg arg : Bytes) : Ending c.fpBits :=
  match namedDump c msg with
  | .error e => .error e
  | .ok (h, U) => .ok { out := renamed h msg U arg, res := 0, fp := 0 }

/-- R170 FPRINT: the raw message for shape OTHER, never UnsupportedShape. -/
def fprintEnding (c : Config) (msg : Bytes) : Ending c.fpBits :=
  match shape c msg with
  | .other => .ok { out := [], res := 0, fp := c.fpHash msg }
  | .ebd | .pd =>
    match namedDump c msg with
    | .error e => .error e
    | .ok (_, U) => .ok { out := [], res := 0, fp := c.fpHash (fpInput U) }

/-- R163 GETNAME. -/
def execGetname (s : State) : Host.Outcome State Fault Refusal :=
  .next (s.endCommand (getnameEnding Config.device s.msg))

/-- R164 GETNUM. -/
def execGetnum (s : State) : Host.Outcome State Fault Refusal :=
  .next (s.endCommand (getnumEnding Config.device s.msg))

/-- R166 RENAME, the one command that reads ARG (10_state.md R25). -/
def execRename (s : State) : Host.Outcome State Fault Refusal :=
  .next (s.endCommand (renameEnding Config.device s.msg s.arg))

/-- R170 FPRINT. -/
def execFprint (s : State) : Host.Outcome State Fault Refusal :=
  .next (s.endCommand (fprintEnding Config.device s.msg))

end Sys2Proof.Machine
end

