-- ==== Sys2Proof/Machine/Dispatch.lean ====
section
/-! DEFINITION. The meaning of every command (30_encoding.md R62), one arm each. -/

namespace Sys2Proof.Machine

/-- Runs a command on the registers as they stand (20_memory.md R47). -/
def exec (i : Instr) (s : State) : Host.Outcome State Fault Refusal :=
  match i with
  | .isebd => Sys2Proof.Machine.execIsebd s
  | .ispd => Sys2Proof.Machine.execIspd s
  | .isbankpart => Sys2Proof.Machine.execIsbankpart s
  | .matchreply => Sys2Proof.Machine.execMatchreply s
  | .classify => Sys2Proof.Machine.execClassify s
  | .pack7 => Sys2Proof.Machine.execPack7 s
  | .unpack7 => Sys2Proof.Machine.execUnpack7 s
  | .unpack7s => Sys2Proof.Machine.execUnpack7s s
  | .getname => Sys2Proof.Machine.execGetname s
  | .getnum => Sys2Proof.Machine.execGetnum s
  | .rename => Sys2Proof.Machine.execRename s
  | .fprint => Sys2Proof.Machine.execFprint s

end Sys2Proof.Machine
end

