-- ==== Sys2Proof/Machine/HostAccess.lean ====
section
/-! DEFINITION. The host's accesses to the interface registers (10_state.md R22 to R30), reset (70_reset_and_hazards.md
R230) and what each line of a host script does (30_encoding.md R70, R71). A fault of the host script leaves no next state
(95_test_vectors.md P5; log entry 8). -/

namespace Sys2Proof.Machine

/-- R23: a host write to CMD stores the code, then runs the command with that code; a reserved code runs the illegal
command (R64, R204). -/
def writeCmd (code : Byte) (s : State) : Host.Outcome State Fault Refusal :=
  match decode code with
  | .ok i => exec i { s with cmd := code }
  | .error _ => execIllegal { s with cmd := code }

/-- R24. -/
def loadMsg (data : Bytes) (s : State) : Host.Outcome State Fault Refusal :=
  if data.length ≤ Config.device.maxMsgLen then .next { s with msg := data } else .fault .msgTooLong

/-- R25. -/
def loadArg (data : Bytes) (s : State) : Host.Outcome State Fault Refusal :=
  if data.length ≤ Config.device.maxArgLen then .next { s with arg := data } else .fault .argTooLong

/-- R70 `LOAD ARG, "text"`. -/
def loadArgText (text : List Char) (s : State) : Host.Outcome State Fault Refusal :=
  if textIsBytes text then loadArg (textBytes text) s else .refused .textNotBytes

/-- R22: the value the host reads; R30: a register not written since reset holds none. -/
def State.readReg (s : State) : Reg → Option RegValue
  | .cmd => some (.byte s.cmd)
  | .msg => some (.bytes s.msg)
  | .arg => some (.bytes s.arg)
  | .out => s.out.map .bytes
  | .res => s.res.map .word
  | .fp => s.fp.map .print
  | .status => s.status.map .byte

/-- R48: a read has no side effect on the registers. A read of a register whose state is "no value" stops the model because
the spec says so: R30 "A model treats that read as a fault of the host script, not as a value"; 93_implementation_defined.md
V4 "It never gives any value". -/
def hostRead (r : Reg) (s : State) : Host.Outcome State Fault Refusal :=
  match s.readReg r with
  | some v => .next { s with reads := s.reads ++ [(r, v)] }
  | none => .fault (.noValue r)

/-- R71: `READ OUT` followed by `LOAD MSG, <the bytes read>`: the read is done here and the load becomes the script's next
line (log entry 11). Its READ OUT faults as any READ of no value does (R30, V4): R71 "It is legal only after a command has
ended, because before that OUT holds no value". -/
def moveMsgOut (s : State) : Host.Outcome State Fault Refusal :=
  match s.out with
  | some data => .next { s with reads := s.reads ++ [(.out, .bytes data)], script := .loadMsg data :: s.script }
  | none => .fault (.noValue .out)

/-- R230: every interface register to its reset value, no command run; the host's script and what it has read are no
registers of the block (log entry 10). -/
def resetBlock (s : State) : Host.Outcome State Fault Refusal :=
  .next { State.reset with script := s.script, reads := s.reads }

/-- R22: "A host write to OUT, RES, FP or STATUS is ignored." -/
def ignoreWrite (s : State) : Host.Outcome State Fault Refusal := .next s

/-- R70, R71: one line of a host script. -/
def hostLine (line : ScriptLine) (s : State) : Host.Outcome State Fault Refusal :=
  match line with
  | .command i => writeCmd (encode i) s
  | .cmd code => writeCmd code s
  | .loadMsg data => loadMsg data s
  | .loadArg data => loadArg data s
  | .loadArgText text => loadArgText text s
  | .read r => hostRead r s
  | .reset => resetBlock s
  | .moveMsgOut => moveMsgOut s
  | .writeResult _ _ => ignoreWrite s

/-- R50: lines are performed one at a time, in script order. With no line left the block is idle and holds its registers
(R214; log entry 15). -/
def hostStep (s : State) : Host.Outcome State Fault Refusal :=
  match s.script with
  | [] => .next s
  | line :: rest => hostLine line { s with script := rest }

/-- The line `CMD 0xNN` for the code whose bits are `w`, `nbits` of them (R60: one byte). -/
def cmdLine (nbits w : Nat) : ScriptLine := .cmd (BitVec.ofNat 8 (w % 2 ^ nbits))

end Sys2Proof.Machine
end

