-- ==== Sys2Proof/Machine/Step.lean ====
section
/-! DEFINITION. One step: one host access, with the command it starts (20_memory.md R47, R50), and how a command is placed
where the next step runs it. -/

namespace Sys2Proof.Machine

/-- One step of the host script on the block. -/
def step : State → Host.Outcome State Fault Refusal := hostStep

/-- The block fetches nothing (10_state.md R21): the host issues each command by writing CMD. So the command's code becomes
the script's next line (log entry 1). -/
def State.withFetchWord (s : State) (nbits w : Nat) : State :=
  { s with script := cmdLine nbits w :: s.script }

end Sys2Proof.Machine
end

