-- ==== Sys2Proof/Safety.lean ====
section
/-! DEFINITION. The terms claims are stated in: the message shapes and the patch data written out from the rules, the bit
streams of the codec's laws (41_codec.md R133, R134, R136), and the invariant of the machine. -/

namespace Sys2Proof

/-- 00_scope.md R8: the number of set bits of a byte. -/
def bytePopcount (b : Byte) : Nat := ((List.range 8).map fun j => (b.getLsbD j).toNat).sum

/-- R8: the sum over the bytes of a sequence. -/
def popcount (S : Bytes) : Nat := (S.map bytePopcount).sum

/-- R133: `pbit(s) = (P[s div 7] >> (s mod 7)) & 1`. -/
def pbit (P : Bytes) (i : Nat) : Bool := (P.getD (i / 7) 0).getLsbD (i % 7)

/-- R134: `ubit(s) = (U[s div 8] >> (s mod 8)) & 1` for s < 8L, and 0 beyond. -/
def ubit (U : Bytes) (i : Nat) : Bool := (U.getD (i / 8) 0).getLsbD (i % 8)

/-- R9: S begins with the bytes T (so it is at least as long). -/
abbrev hasPrefix (S T : Bytes) : Prop := S.take T.length = T

/-- R103, R101: more than 6 bytes, and SOX, MFR, 0x02, 0x10 first. -/
abbrev looksEBD (c : Config) (S : Bytes) : Prop :=
  6 < S.length ∧ hasPrefix S [c.sox, c.mfr0, c.mfr1, c.mfr2, c.mfr3, 0x02, 0x10]

/-- R104, R101: more than 5 bytes, and SOX, MFR, 0x00 first. -/
abbrev looksPD (c : Config) (S : Bytes) : Prop :=
  5 < S.length ∧ hasPrefix S [c.sox, c.mfr0, c.mfr1, c.mfr2, c.mfr3, 0x00]

/-- R106, R101: more than 6 bytes, and SOX, MFR, 0x0A first. -/
abbrev looksBDR (c : Config) (S : Bytes) : Prop :=
  6 < S.length ∧ hasPrefix S [c.sox, c.mfr0, c.mfr1, c.mfr2, c.mfr3, 0x0A]

/-- R105, R101: the Device Inquiry Reply prefix first. -/
abbrev looksReply (c : Config) (S : Bytes) : Prop :=
  hasPrefix S ([c.sox, 0x7E, 0x7F, 0x06, 0x02, 0x00, 0x00] ++ c.inqId ++ [0x00, 0x00, 0x00])

namespace Machine

/-- R160: S is a dump with a header of `h` bytes: 8 for a program dump, 7 for an edit-buffer dump. -/
def hasHeader (c : Config) (S : Bytes) (h : Nat) : Prop := (looksPD c S ∧ h = 8) ∨ (looksEBD c S ∧ h = 7)

/-- R160, R161: what the bytes between the header and the last byte unpack to. -/
def dumpData (h : Nat) (S : Bytes) : Bytes := unpack7 ((S.take (S.length - 1)).drop h)

/-- R166, R168: U with bytes 2 to 17 replaced by the 16 bytes N. -/
def replaceName (U N : Bytes) : Bytes := U.take 2 ++ N ++ U.drop 18

/-- R165: the first 16 bytes of A, then spaces up to 16. -/
def paddedName (A : Bytes) : Bytes := A.take 16 ++ List.replicate (16 - A.length) 0x20

/-- R30, R200, R201: the four result registers hold no value, or all of them hold one. Then OUT is within its capacity
(R26), STATUS is a legal code (R29), and an error status stands beside cleared results (R201). -/
def State.resultsInv (s : State) : Prop :=
  (s.out = none ∧ s.res = none ∧ s.fp = none ∧ s.status = none) ∨
  ∃ o r f st, s.out = some o ∧ s.res = some r ∧ s.fp = some f ∧ s.status = some st ∧
    o.length ≤ Config.device.maxOutLen ∧ st.toNat ≤ 4 ∧ (st ≠ 0 → o = [] ∧ r = 0 ∧ f = 0)

/-- R24, R25: the buffers the host loads are within their capacities; and `resultsInv`. -/
def State.Inv (s : State) : Prop :=
  s.msg.length ≤ Config.device.maxMsgLen ∧ s.arg.length ≤ Config.device.maxArgLen ∧ s.resultsInv

/-- What the block shows the host as a command's result. -/
def State.results (s : State) : Option Bytes × Option Word32 × Option (BitVec Config.device.fpBits) × Option Byte :=
  (s.out, s.res, s.fp, s.status)

end Machine
end Sys2Proof
end

