-- ==== Sys2Proof/Certificates/Slice0/Obligations.lean ====
section
/-! DEFINITION. What is claimed of the model, in the terms of Safety.lean. Every statement about the machine is about any
legal configuration, since `Config.device` has no body. Where a rule carries the spec's own mark "[derived: …]", the
docstring says so. -/

open Sys2Proof Sys2Proof.Machine

/-! ### Reset, decoding and the step -/

/-- R33, R230: the seven interface registers after reset, and the RESET line at any point between two accesses. That the
script and the reads outlive RESET is the model's choice (log entry 10) and is not claimed here. -/
def Obligations.ResetSetsEveryRegister : Prop :=
  (State.reset.cmd = 0x00 ∧ State.reset.msg = [] ∧ State.reset.arg = [] ∧ State.reset.out = none ∧
    State.reset.res = none ∧ State.reset.fp = none ∧ State.reset.status = none) ∧
  ∀ (s : State) (rest : List ScriptLine), s.script = .reset :: rest →
    ∃ t, step s = .next t ∧ t.cmd = 0x00 ∧ t.msg = [] ∧ t.arg = [] ∧ t.out = none ∧ t.res = none ∧ t.fp = none ∧
      t.status = none

/-- R62: the twelve codes, each the whole word. -/
def Obligations.OpcodeMapDecodes : Prop :=
  decode 0b00010000#8 = .ok .isebd ∧ decode 0b00010001#8 = .ok .ispd ∧ decode 0b00010010#8 = .ok .isbankpart ∧
  decode 0b00010011#8 = .ok .matchreply ∧ decode 0b00010100#8 = .ok .classify ∧ decode 0b00100000#8 = .ok .pack7 ∧
  decode 0b00100001#8 = .ok .unpack7 ∧ decode 0b00100010#8 = .ok .unpack7s ∧ decode 0b00110000#8 = .ok .getname ∧
  decode 0b00110001#8 = .ok .getnum ∧ decode 0b00110010#8 = .ok .rename ∧ decode 0b00110011#8 = .ok .fprint

/-- 30_encoding.md R60 to R62: a command's code decodes to it, whatever follows, and a word that decodes is that command's
code. -/
def Obligations.DecodeAndEncodeAgree : Prop :=
  (∀ (i : Instr) (rest : Bytes), decodeBytes (encode i :: rest) = .ok (i, rest)) ∧
  ∀ (w : Byte) (i : Instr), decode w = .ok i → encode i = w

/-- 10_state.md R23, 20_memory.md R47: the line `CMD 0xNN` with a defined code, and the line `<MNEMONIC>`, store the code
and run that command in one step. That the lines stand in a script which moves on is the model's choice (log entry 1). -/
def Obligations.CmdWriteRunsTheCommand : Prop :=
  (∀ (s : State) (w : Byte) (i : Instr) (rest : List ScriptLine), s.script = .cmd w :: rest → decode w = .ok i →
    step s = exec i { s with cmd := w, script := rest }) ∧
  ∀ (s : State) (i : Instr) (rest : List ScriptLine), s.script = .command i :: rest →
    step s = exec i { s with cmd := encode i, script := rest }

/-- How the model places a command where the next step runs it (the model's choice, log entry 1): the code is issued as
the next host write of CMD. -/
def Obligations.PlacedCommandRunsNext : Prop :=
  ∀ (s : State) (i : Instr), step (s.withFetchWord 8 (encode i).toNat) = exec i { s with cmd := encode i }

/-- 30_encoding.md R64, 60_exceptions.md R204: each of the 244 reserved codes runs the illegal command. That the write is a
line of a script which moves on (`script := rest`) is the model's choice (log entry 1). -/
def Obligations.ReservedCodesEndIllegalCommand : Prop :=
  ∀ (s : State) (w : Byte) (rest : List ScriptLine), s.script = .cmd w :: rest →
    (w.toNat ≤ 0x0F ∨ (0x15 ≤ w.toNat ∧ w.toNat ≤ 0x1F) ∨ (0x23 ≤ w.toNat ∧ w.toNat ≤ 0x2F) ∨ 0x34 ≤ w.toNat) →
    step s = .next { s with cmd := w, script := rest, out := some [], res := some 0, fp := some 0, status := some 4 }

/-! ### The classifier commands -/

/-- R110. -/
def Obligations.IsebdTestsTheEditBufferPreamble : Prop :=
  ∀ s : State, exec .isebd s = .next { s with
    out := some [], res := some (if looksEBD Config.device s.msg then 1 else 0), fp := some 0, status := some 0 }

/-- R111. -/
def Obligations.IspdTestsTheProgramDumpPreamble : Prop :=
  ∀ s : State, exec .ispd s = .next { s with
    out := some [], res := some (if looksPD Config.device s.msg then 1 else 0), fp := some 0, status := some 0 }

/-- R112. -/
def Obligations.IsbankpartAgreesWithIspd : Prop :=
  (∀ s : State, exec .isbankpart s = .next { s with
    out := some [], res := some (if looksPD Config.device s.msg then 1 else 0), fp := some 0, status := some 0 }) ∧
  ∀ s : State, exec .isbankpart s = exec .ispd s

/-- R113. -/
def Obligations.MatchreplyTestsTheReplyPrefix : Prop :=
  ∀ s : State, exec .matchreply s = .next { s with
    out := some [], res := some (if looksReply Config.device s.msg then 1 else 0), fp := some 0, status := some 0 }

/-- R109, R114: the kinds in test order, with the fields of RES laid out as bytes (program, bank, tag). -/
def Obligations.ClassifyGivesTheMessageKind : Prop :=
  ∀ s : State, exec .classify s = .next { s with
    out := some [], fp := some 0, status := some 0,
    res := some
      (if looksReply Config.device s.msg then (0#8 ++ 0#8 ++ 0#8 ++ 1#8)
       else if looksEBD Config.device s.msg then (0#8 ++ 0#8 ++ 0#8 ++ 2#8)
       else if looksPD Config.device s.msg ∧ 8 ≤ s.msg.length then
         (0#8 ++ s.msg.getD 7 0 ++ s.msg.getD 6 0 ++ 3#8)
       else if looksBDR Config.device s.msg then (0#8 ++ 0#8 ++ s.msg.getD 6 0 ++ 4#8)
       else 0) }

/-- R115 ("[derived: from rules R101 and R103 to R106]"): the predicates exclude each other under a legal
configuration. -/
def Obligations.PredicatesExcludeEachOther : Prop :=
  ∀ (c : Config) (S : Bytes),
    [inqMatch c S, isEBD c S, isPD c S, isBDR c S].countP id ≤ 1

/-- R116 ("[derived: from rules R109 to R115]"): CLASSIFY's tag agrees with the predicate commands. -/
def Obligations.ClassifyAgreesWithThePredicates : Prop :=
  ∀ s : State, ∃ (r : Word32) (e p m : Bool) (tc te tp tm : State),
    exec .classify s = .next tc ∧ exec .isebd s = .next te ∧ exec .ispd s = .next tp ∧ exec .matchreply s = .next tm ∧
    tc.res = some r ∧ te.res = some (if e then 1 else 0) ∧ tp.res = some (if p then 1 else 0) ∧
    tm.res = some (if m then 1 else 0) ∧
    (r.extractLsb' 0 4 = 2#4 ↔ e = true) ∧
    (r.extractLsb' 0 4 = 3#4 ↔ p = true ∧ 8 ≤ s.msg.length) ∧
    (r.extractLsb' 0 4 = 4#4 ↔ looksBDR Config.device s.msg) ∧
    (r.extractLsb' 0 4 = 1#4 ↔ m = true)

/-- 40_classifier.md R102: a classifier command reads no byte of MSG past the inquiry prefix and the first 8 bytes. -/
def Obligations.ClassifierReadsOnlyTheHeader : Prop :=
  ∀ (i : Instr) (s s' t t' : State) (n : Nat),
    (i = .isebd ∨ i = .ispd ∨ i = .isbankpart ∨ i = .matchreply ∨ i = .classify) →
    8 ≤ n → 10 + Config.device.inqId.length ≤ n → s.msg.take n = s'.msg.take n →
    exec i s = .next t → exec i s' = .next t' → t.results = t'.results

/-! ### The bit codec -/

/-- R140: OUT is the packing of MSG, of the stated length, every byte below 0x80. -/
def Obligations.Pack7WritesThePacking : Prop :=
  ∀ s : State, exec .pack7 s = .next { s with
      out := some (pack7 s.msg), res := some 0, fp := some 0, status := some 0 } ∧
    (pack7 s.msg).length = s.msg.length + s.msg.length / 7 + 1 ∧ ∀ b ∈ pack7 s.msg, b.toNat < 0x80

/-- R141: OUT is the unpacking of MSG, of the stated length, for every length of MSG; bit 7 of MSG's bytes is ignored. -/
def Obligations.Unpack7WritesTheUnpacking : Prop :=
  ∀ s : State, exec .unpack7 s = .next { s with
      out := some (unpack7 s.msg), res := some 0, fp := some 0, status := some 0 } ∧
    (unpack7 s.msg).length = 7 * s.msg.length / 8 ∧ unpack7 (s.msg.map (· &&& 0x7F)) = unpack7 s.msg

/-- R142: the length precondition decides between the unpacking and CodecPrecondition. -/
def Obligations.Unpack7sChecksTheLength : Prop :=
  ∀ s : State,
    (s.msg.length % 8 ≠ 0 → exec .unpack7s s = .next { s with
      out := some (unpack7 s.msg), res := some 0, fp := some 0, status := some 0 }) ∧
    (s.msg.length % 8 = 0 → exec .unpack7s s = .next { s with
      out := some [], res := some 0, fp := some 0, status := some 3 })

/-- R133 ("[derived: from rule R131]"): the closed form of unpack7, and so its bit order (R43). -/
def Obligations.Unpack7ClosedForm : Prop :=
  ∀ P : Bytes, (unpack7 P).length = 7 * P.length / 8 ∧
    ∀ k, k < 7 * P.length / 8 → ∀ j, j < 8 → ((unpack7 P).getD k 0).getLsbD j = pbit P (8 * k + j)

/-- R134 ("[derived: from rule R132]"): the closed form of pack7. -/
def Obligations.Pack7ClosedForm : Prop :=
  ∀ U : Bytes, (pack7 U).length = U.length + U.length / 7 + 1 ∧
    ∀ t, t < (pack7 U).length →
      (∀ j, j < 7 → ((pack7 U).getD t 0).getLsbD j = ubit U (7 * t + j)) ∧ ((pack7 U).getD t 0).getLsbD 7 = false

/-- R135 ("[derived: from rules R133 and R134]"): the source's required property. -/
def Obligations.UnpackOfPackIsIdentity : Prop := ∀ U : Bytes, unpack7 (pack7 U) = U

/-- R135, R139: on the machine, UNPACK7 and UNPACK7S of PACK7's OUT give MSG back with status OK. -/
def Obligations.UnpackCommandsUndoPack7 : Prop :=
  ∀ (s t : State) (o : Bytes), exec .pack7 s = .next t → t.out = some o →
    exec .unpack7 { t with msg := o } = .next { t with
      msg := o, out := some s.msg, res := some 0, fp := some 0, status := some 0 } ∧
    exec .unpack7s { t with msg := o } = .next { t with
      msg := o, out := some s.msg, res := some 0, fp := some 0, status := some 0 }

/-- R136 ("[derived: from rules R133 and R134]"): pack7 keeps the number of set bits; unpack7 never raises it. -/
def Obligations.PopcountKeptByPack7 : Prop :=
  (∀ U : Bytes, popcount (pack7 U) = popcount U) ∧ ∀ P : Bytes, popcount (unpack7 P) ≤ popcount P

/-- R137 ("[derived: from rules R132 and R134]"): the last byte holds only the remaining carry, L mod 7 bits. -/
def Obligations.FlushByteHoldsOnlyTheCarry : Prop :=
  ∀ U : Bytes, ∃ (body : Bytes) (flush : Byte), pack7 U = body ++ [flush] ∧ flush.toNat < 2 ^ (U.length % 7)

/-- R138 ("[derived: from rules R133 and R134]"): which packed sequences pack7 gives back. -/
def Obligations.PackOfUnpackIsIdentityExactlyOnCanonical : Prop :=
  ∀ P : Bytes, pack7 (unpack7 P) = P ↔
    P.length % 8 ≠ 0 ∧ (∀ b ∈ P, b.toNat < 0x80) ∧
      ∀ j, P.length % 8 - 1 ≤ j → j ≤ 6 → (P.getD (P.length - 1) 0).getLsbD j = false

/-- R139: the remainder rule, and "Exactly the lengths that pack7 can produce are accepted". -/
def Obligations.StrictLengthsAreThePackedLengths : Prop :=
  ∀ n : Nat, (strictLenOK n = true ↔ n % 8 ≠ 0) ∧ (strictLenOK n = true ↔ ∃ U : Bytes, (pack7 U).length = n)

/-! ### The metadata commands -/

/-- R107, with R103, R104 and R101 written out. -/
def Obligations.ShapeIsDecidedByThePreamble : Prop :=
  ∀ (c : Config) (S : Bytes), (shape c S = .ebd ↔ looksEBD c S) ∧ (shape c S = .pd ↔ looksPD c S) ∧
    (shape c S = .other ↔ ¬ looksEBD c S ∧ ¬ looksPD c S)

/-- R163, R205: the three ways GETNAME ends, in the order of its checks. -/
def Obligations.GetnameGivesTheNameField : Prop :=
  ∀ s : State,
    (¬ looksEBD Config.device s.msg → ¬ looksPD Config.device s.msg → exec .getname s = .next { s with
      out := some [], res := some 0, fp := some 0, status := some 1 }) ∧
    ∀ h, hasHeader Config.device s.msg h →
      ((dumpData h s.msg).length < 18 → exec .getname s = .next { s with
        out := some [], res := some 0, fp := some 0, status := some 2 }) ∧
      (18 ≤ (dumpData h s.msg).length → exec .getname s = .next { s with
        out := some (((dumpData h s.msg).drop 2).take 16), res := some 0, fp := some 0, status := some 0 })

/-- R164: the slot number on raw bytes, 0 for an edit-buffer dump, and the two errors. -/
def Obligations.GetnumGivesTheSlot : Prop :=
  ∀ s : State,
    (looksEBD Config.device s.msg → exec .getnum s = .next { s with
      out := some [], res := some 0, fp := some 0, status := some 0 }) ∧
    (looksPD Config.device s.msg → 8 ≤ s.msg.length → exec .getnum s = .next { s with
      out := some [], fp := some 0, status := some 0,
      res := some (BitVec.ofNat 32 ((s.msg.getD 6 0).toNat * 128 + (s.msg.getD 7 0).toNat)) }) ∧
    (looksPD Config.device s.msg → s.msg.length < 8 → exec .getnum s = .next { s with
      out := some [], res := some 0, fp := some 0, status := some 2 }) ∧
    (¬ looksEBD Config.device s.msg → ¬ looksPD Config.device s.msg → exec .getnum s = .next { s with
      out := some [], res := some 0, fp := some 0, status := some 1 })

/-- R166, R165: header and last byte of MSG around the re-packed data, the name taken from ARG. -/
def Obligations.RenameReplacesTheNameField : Prop :=
  ∀ s : State,
    (¬ looksEBD Config.device s.msg → ¬ looksPD Config.device s.msg → exec .rename s = .next { s with
      out := some [], res := some 0, fp := some 0, status := some 1 }) ∧
    ∀ h, hasHeader Config.device s.msg h →
      ((dumpData h s.msg).length < 18 → exec .rename s = .next { s with
        out := some [], res := some 0, fp := some 0, status := some 2 }) ∧
      (18 ≤ (dumpData h s.msg).length → exec .rename s = .next { s with
        out := some (s.msg.take h ++ pack7 (replaceName (dumpData h s.msg) (paddedName s.arg)) ++
          s.msg.drop (s.msg.length - 1)),
        res := some 0, fp := some 0, status := some 0 })

/-- R170, R168: the hash of the PatchData with its name zeroed; of the raw MSG for any other shape. -/
def Obligations.FprintHashesTheDataWithoutItsName : Prop :=
  ∀ s : State,
    (¬ looksEBD Config.device s.msg → ¬ looksPD Config.device s.msg → exec .fprint s = .next { s with
      out := some [], res := some 0, fp := some (Config.device.fpHash s.msg), status := some 0 }) ∧
    ∀ h, hasHeader Config.device s.msg h →
      ((dumpData h s.msg).length < 18 → exec .fprint s = .next { s with
        out := some [], res := some 0, fp := some 0, status := some 2 }) ∧
      (18 ≤ (dumpData h s.msg).length → exec .fprint s = .next { s with
        out := some [], res := some 0, status := some 0,
        fp := some (Config.device.fpHash (replaceName (dumpData h s.msg) (List.replicate 16 0x00))) })

/-- R167 ("[derived: from rule R166 and 41_codec.md rules R133 and R134]"). -/
def Obligations.RenameKeepsTheLengthOrAddsOneByte : Prop :=
  ∀ (s t : State) (h : Nat) (o : Bytes), hasHeader Config.device s.msg h → 18 ≤ (dumpData h s.msg).length →
    exec .rename s = .next t → t.out = some o →
    o.length = s.msg.length + (if ((s.msg.take (s.msg.length - 1)).drop h).length % 8 = 0 then 1 else 0)

/-- R171, first and fifth clause ("[derived: from rules R160 to R170 and 41_codec.md rule R135]"): the renamed message is
the same kind of dump, and its PatchData is the old one with the name replaced. -/
def Obligations.RenamedDumpKeepsItsOtherData : Prop :=
  ∀ (s t : State) (h : Nat) (o : Bytes), hasHeader Config.device s.msg h → 18 ≤ (dumpData h s.msg).length →
    exec .rename s = .next t → t.out = some o →
    shape Config.device o = shape Config.device s.msg ∧ hasHeader Config.device o h ∧
      dumpData h o = replaceName (dumpData h s.msg) (paddedName s.arg)

/-- R171, second and third clause (derived, as the spec marks it): GETNAME of the renamed message gives the new name,
GETNUM the old number. -/
def Obligations.RenamedDumpHasTheNewNameAndOldNumber : Prop :=
  ∀ (s t : State) (h : Nat) (o : Bytes), hasHeader Config.device s.msg h → 18 ≤ (dumpData h s.msg).length →
    exec .rename s = .next t → t.out = some o →
    exec .getname { t with msg := o } = .next { t with
      msg := o, out := some (paddedName s.arg), res := some 0, fp := some 0, status := some 0 } ∧
    ∃ r n n', exec .getnum s = .next n ∧ exec .getnum { t with msg := o } = .next n' ∧
      n.res = some r ∧ n'.res = some r ∧ n.status = some 0 ∧ n'.status = some 0

/-- R171, fourth clause (derived, as the spec marks it): renaming does not change the fingerprint. -/
def Obligations.RenameKeepsTheFingerprint : Prop :=
  ∀ (s t : State) (h : Nat) (o : Bytes), hasHeader Config.device s.msg h → 18 ≤ (dumpData h s.msg).length →
    exec .rename s = .next t → t.out = some o →
    ∃ n n', exec .fprint s = .next n ∧ exec .fprint { t with msg := o } = .next n' ∧ n.results = n'.results

/-- R171, sixth clause (derived, as the spec marks it): the fingerprint ignores name, header shape, slot and last byte. -/
def Obligations.FingerprintIgnoresNameAndSlot : Prop :=
  ∀ (s s' : State) (h h' : Nat), hasHeader Config.device s.msg h → hasHeader Config.device s'.msg h' →
    18 ≤ (dumpData h s.msg).length → 18 ≤ (dumpData h' s'.msg).length →
    (dumpData h s.msg).take 2 = (dumpData h' s'.msg).take 2 →
    (dumpData h s.msg).drop 18 = (dumpData h' s'.msg).drop 18 →
    ∃ n n', exec .fprint s = .next n ∧ exec .fprint s' = .next n' ∧ n.results = n'.results

/-! ### All commands -/

/-- R200, R201, R202: each command writes all four results and nothing else, with status OK or with an error status beside
cleared results. -/
def Obligations.EveryCommandEndsWithFourResults : Prop :=
  ∀ (i : Instr) (s : State), ∃ (o : Bytes) (r : Word32) (f : BitVec Config.device.fpBits) (st : Byte),
    exec i s = .next { s with out := some o, res := some r, fp := some f, status := some st } ∧
    (st = 0 ∨ ((st = 1 ∨ st = 2 ∨ st = 3 ∨ st = 4) ∧ o = [] ∧ r = 0 ∧ f = 0))

/-- Frame of all twelve commands (R200, R201: "MSG, ARG and CMD are unchanged"): the registers a command does not write,
every byte of the input buffers among them, and the host's script and reads. -/
def Obligations.CommandsLeaveInputsUnchanged : Prop :=
  ∀ (i : Instr) (s t : State), exec i s = .next t →
    t.cmd = s.cmd ∧ t.msg.length = s.msg.length ∧ t.arg.length = s.arg.length ∧
    (∀ k : Nat, t.msg[k]? = s.msg[k]?) ∧ (∀ k : Nat, t.arg[k]? = s.arg[k]?) ∧ t.script = s.script ∧ t.reads = s.reads

/-- R203 ("[derived: from 40_classifier.md, 41_codec.md and 42_metadata.md]"): which status each command ends with. -/
def Obligations.StatusOfEachCommand : Prop :=
  ∀ (i : Instr) (s t : State), exec i s = .next t →
    (i ∈ [.isebd, .ispd, .isbankpart, .matchreply, .classify, .pack7, .unpack7] → t.status = some 0) ∧
    (i = .unpack7s → t.status = some (if s.msg.length % 8 ≠ 0 then 0 else 3)) ∧
    (i = .getname ∨ i = .rename → ∀ h, hasHeader Config.device s.msg h →
      t.status = some (if (dumpData h s.msg).length < 18 then 2 else 0)) ∧
    (i = .getname ∨ i = .rename ∨ i = .getnum → ¬ looksEBD Config.device s.msg → ¬ looksPD Config.device s.msg →
      t.status = some 1) ∧
    (i = .getnum → looksEBD Config.device s.msg → t.status = some 0) ∧
    (i = .getnum → looksPD Config.device s.msg → t.status = some (if s.msg.length < 8 then 2 else 0)) ∧
    (i = .fprint → ¬ looksEBD Config.device s.msg → ¬ looksPD Config.device s.msg → t.status = some 0) ∧
    (i = .fprint → ∀ h, hasHeader Config.device s.msg h →
      t.status = some (if (dumpData h s.msg).length < 18 then 2 else 0))

/-- R27: the bits of RES a command does not use are 0. -/
def Obligations.UnusedResBitsAreZero : Prop :=
  ∀ (i : Instr) (s t : State) (r : Word32) (st : Byte),
    exec i s = .next t → t.res = some r → t.status = some st →
    (i ∈ [.isebd, .ispd, .isbankpart, .matchreply] → r.toNat ≤ 1) ∧
    (i = .classify → r.extractLsb' 24 8 = 0#8 ∧ r.extractLsb' 4 4 = 0#4 ∧ (r.extractLsb' 0 4).toNat ≤ 4) ∧
    (i = .getnum → r.toNat ≤ 32895) ∧
    (i ∉ [.isebd, .ispd, .isbankpart, .matchreply, .classify, .getnum] → r = 0) ∧ (st ≠ 0 → r = 0)

/-- R28: "FPRINT writes into it the value of FP_HASH" and "Every other command, and an FPRINT that does not end OK, writes
0". -/
def Obligations.OnlyFprintWritesAFingerprint : Prop :=
  ∀ (i : Instr) (s t : State), exec i s = .next t →
    (i = .fprint → t.status = some 0 → ∃ input, t.fp = some (Config.device.fpHash input)) ∧
    (i ≠ .fprint ∨ t.status ≠ some 0 → t.fp = some 0)

/-- R26 ("[derived: from rule R24 and 41_codec.md rule R134 …]"): no command writes more than the packing of the longest
MSG. -/
def Obligations.OutNeverOverflows : Prop :=
  ∀ (i : Instr) (s t : State) (o : Bytes) (n : Nat), exec i s = .next t → t.out = some o → s.msg.length ≤ n →
    o.length ≤ n + n / 7 + 1

/-- 10_state.md R25, 20_memory.md R48, 70_reset_and_hazards.md R232: a command's results are a function of MSG, and for
RENAME of the first 16 bytes of ARG: of no other register and of no earlier result. -/
def Obligations.ResultsDependOnMsgAndNameOnly : Prop :=
  ∀ (i : Instr) (s s' t t' : State), s.msg = s'.msg → (i = .rename → s.arg.take 16 = s'.arg.take 16) →
    exec i s = .next t → exec i s' = .next t' → t.results = t'.results

/-- 20_memory.md R48: running the same command again on the same MSG and ARG changes nothing. -/
def Obligations.RepeatedCommandGivesTheSame : Prop :=
  ∀ (i : Instr) (s t : State), exec i s = .next t → exec i t = .next t

/-! ### The host's accesses -/

/-- 10_state.md R24: a LOAD MSG that fits replaces MSG whole; a longer one is a fault of the host script. The script is the
model's (log entry 1). -/
def Obligations.LoadMsgFitsOrFaults : Prop :=
  ∀ (s : State) (data : Bytes) (rest : List ScriptLine), s.script = .loadMsg data :: rest →
    (data.length ≤ Config.device.maxMsgLen → step s = .next { s with msg := data, script := rest }) ∧
    (Config.device.maxMsgLen < data.length → step s = .fault .msgTooLong)

/-- 10_state.md R25: the same for ARG, given as bytes or as text whose characters are bytes (30_encoding.md R70). The script
is the model's (log entry 1). -/
def Obligations.LoadArgFitsOrFaults : Prop :=
  (∀ (s : State) (data : Bytes) (rest : List ScriptLine), s.script = .loadArg data :: rest →
    (data.length ≤ Config.device.maxArgLen → step s = .next { s with arg := data, script := rest }) ∧
    (Config.device.maxArgLen < data.length → step s = .fault .argTooLong)) ∧
  ∀ (s : State) (text : List Char) (rest : List ScriptLine), s.script = .loadArgText text :: rest →
    (∀ ch ∈ text, ch.toNat ≤ 0xFF) →
    (text.length ≤ Config.device.maxArgLen → ∃ data, step s = .next { s with arg := data, script := rest } ∧
      data.map BitVec.toNat = text.map Char.toNat) ∧
    (Config.device.maxArgLen < text.length → step s = .fault .argTooLong)

/-- 10_state.md R22, R30, 20_memory.md R48, R50: a READ of each of the seven registers returns what that register holds and
changes no register; one that holds no value is a fault of the host script. That the value is kept in `reads` is the model's choice (log entry 2). -/
def Obligations.ReadReturnsTheValueOrFaults : Prop :=
  ∀ (s : State) (reg : Reg) (rest : List ScriptLine), s.script = .read reg :: rest →
    (∀ v, s.readReg reg = some v → step s = .next { s with script := rest, reads := s.reads ++ [(reg, v)] }) ∧
    (s.readReg reg = none → step s = .fault (.noValue reg)) ∧
    (s.readReg .cmd = some (.byte s.cmd) ∧ s.readReg .msg = some (.bytes s.msg) ∧ s.readReg .arg = some (.bytes s.arg)) ∧
    (s.readReg .out = s.out.map .bytes ∧ s.readReg .res = s.res.map .word ∧ s.readReg .fp = s.fp.map .print ∧
      s.readReg .status = s.status.map .byte)

/-- 10_state.md R22: "A host write to OUT, RES, FP or STATUS is ignored." -/
def Obligations.WritesToResultsAreIgnored : Prop :=
  ∀ (s : State) (r : ResultReg) (v : RegValue) (rest : List ScriptLine), s.script = .writeResult r v :: rest →
    step s = .next { s with script := rest }

/-- R71: `MOVE MSG, OUT` reads OUT, then loads MSG with what it read; it faults where either access does. The
two steps and the record in `reads` are the model's choice (log entries 2 and 11). -/
def Obligations.MoveReadsOutThenLoadsMsg : Prop :=
  ∀ (s : State) (rest : List ScriptLine), s.script = .moveMsgOut :: rest →
    (s.out = none → step s = .fault (.noValue .out)) ∧
    ∀ o, s.out = some o → ∃ t, step s = .next t ∧
      (o.length ≤ Config.device.maxMsgLen →
        step t = .next { s with msg := o, script := rest, reads := s.reads ++ [(.out, .bytes o)] }) ∧
      (Config.device.maxMsgLen < o.length → step t = .fault .msgTooLong)

/-- 60_exceptions.md R214: with no access pending the block holds its registers. That an exhausted script steps to the same
state is the model's reading of it (log entry 15). -/
def Obligations.IdleBlockHoldsItsRegisters : Prop := ∀ s : State, s.script = [] → step s = .next s

/-- 60_exceptions.md R214, 10_state.md R24, R25: which lines can change MSG, ARG, CMD and the results. `MOVE
MSG, OUT` (30_encoding.md R71) is not among them because in the model its own step only reads, and the load it expands to
is the script's next line (log entry 11). -/
def Obligations.OnlyTheNamedLinesChangeARegister : Prop :=
  ∀ (s t : State) (line : ScriptLine) (rest : List ScriptLine), s.script = line :: rest → step s = .next t →
    (t.msg ≠ s.msg → line = .reset ∨ ∃ data, line = .loadMsg data) ∧
    (t.arg ≠ s.arg → line = .reset ∨ (∃ data, line = .loadArg data) ∨ ∃ text, line = .loadArgText text) ∧
    (t.cmd ≠ s.cmd ∨ t.results ≠ s.results →
      line = .reset ∨ (∃ w, line = .cmd w) ∨ ∃ i, line = .command i)

/-- R30 ("[derived: from rule R33 and 60_exceptions.md rules R200 and R201]"): from the first command on, and until RESET,
the four result registers hold values. -/
def Obligations.ResultsHoldValuesUntilReset : Prop :=
  (∀ (s t : State) (rest : List ScriptLine), (∃ w, s.script = .cmd w :: rest) ∨ (∃ i, s.script = .command i :: rest) →
    step s = .next t → t.out ≠ none ∧ t.res ≠ none ∧ t.fp ≠ none ∧ t.status ≠ none) ∧
  ∀ s t : State, (∀ rest, s.script ≠ .reset :: rest) → step s = .next t →
    (s.out ≠ none → t.out ≠ none) ∧ (s.res ≠ none → t.res ≠ none) ∧ (s.fp ≠ none → t.fp ≠ none) ∧
      (s.status ≠ none → t.status ≠ none)

/-! ### The invariant -/

/-- The reset state meets the invariant. -/
def Obligations.ResetMeetsTheInvariant : Prop := State.reset.Inv

/-- Every step, from every state that meets the invariant, keeps it: capacities (R24, R25, R26), all four results or none
(R30), legal status (R29), cleared results beside an error (R201). -/
def Obligations.EveryStepKeepsTheInvariant : Prop :=
  ∀ s t : State, s.Inv → step s = .next t → t.Inv
end

