-- ==== Sys2Proof/Laws/Codec.lean ====
section
/-! SUPPORT. The codec's functions by one step of their loops, and the bits of one unpacked and one packed byte. -/

namespace Sys2Proof.Machine

@[simp] theorem unpack7From_nil (r : Nat) : unpack7From r [] = [] := rfl

@[simp] theorem unpack7From_single (r : Nat) (b : Byte) : unpack7From r [b] = [] := rfl

theorem unpack7From_step (r : Nat) (a b : Byte) (rest : Bytes) (h : r + 1 ≠ 7) :
    unpack7From r (a :: b :: rest) = unpackByte r a b :: unpack7From (r + 1) (b :: rest) := by
  simp [unpack7From, h]

theorem unpack7From_wrap (a b : Byte) (rest : Bytes) :
    unpack7From 6 (a :: b :: rest) = unpackByte 6 a b :: unpack7From 0 rest := by
  simp [unpack7From]

@[simp] theorem pack7From_nil (k : Nat) (carry : Byte) : pack7From k carry [] = [carry] := rfl

theorem pack7From_step (k : Nat) (carry u : Byte) (rest : Bytes) (h : k - 1 ≠ 0) :
    pack7From k carry (u :: rest) =
      ((carry ||| (u <<< (7 - k))) &&& 0x7F) :: pack7From (k - 1) (u >>> k) rest := by
  simp [pack7From, h]

theorem pack7From_wrap (carry u : Byte) (rest : Bytes) :
    pack7From 1 carry (u :: rest) =
      ((carry ||| (u <<< 6)) &&& 0x7F) :: (u >>> 1) :: pack7From 7 0 rest := by
  simp [pack7From]

/-- Bit `j` of an unpacked byte: bits r..6 of the first packed byte, then bits 0..r of the second. -/
theorem getLsbD_unpackByte (r : Nat) (hr : r < 7) (a b : Byte) (j : Nat) (hj : j < 8) :
    (unpackByte r a b).getLsbD j = if j < 7 - r then a.getLsbD (r + j) else b.getLsbD (j - (7 - r)) := by
  interval_cases r <;> interval_cases j <;> simp [unpackByte, mask]

/-- Bit 7 of a packed byte's input never reaches the output (R131, D11). -/
theorem unpackByte_mask (r : Nat) (hr : r < 7) (a b : Byte) :
    unpackByte r (a &&& 0x7F) (b &&& 0x7F) = unpackByte r a b := by
  apply BitVec.eq_of_getLsbD_eq
  intro j hj
  rw [getLsbD_unpackByte r hr _ _ j hj, getLsbD_unpackByte r hr _ _ j hj]
  interval_cases r <;> interval_cases j <;> simp

end Sys2Proof.Machine
end

