-- ==== Sys2Proof/Laws/State.lean ====
section
/-! SUPPORT. What the register updates leave in each field: `writeResults`, and `finish`, `raise` and `endCommand` over
it. -/

namespace Sys2Proof.Machine

variable (s : State) (r : Results Config.device.fpBits) (st : Byte) (x : ErrorStatus) (e : Ending Config.device.fpBits)

@[simp] theorem State.writeResults_cmd : (s.writeResults r st).cmd = s.cmd := rfl
@[simp] theorem State.writeResults_msg : (s.writeResults r st).msg = s.msg := rfl
@[simp] theorem State.writeResults_arg : (s.writeResults r st).arg = s.arg := rfl
@[simp] theorem State.writeResults_out : (s.writeResults r st).out = some r.out := rfl
@[simp] theorem State.writeResults_res : (s.writeResults r st).res = some r.res := rfl
@[simp] theorem State.writeResults_fp : (s.writeResults r st).fp = some r.fp := rfl
@[simp] theorem State.writeResults_status : (s.writeResults r st).status = some st := rfl
@[simp] theorem State.writeResults_script : (s.writeResults r st).script = s.script := rfl
@[simp] theorem State.writeResults_reads : (s.writeResults r st).reads = s.reads := rfl

theorem State.finish_eq : s.finish r = s.writeResults r 0 := rfl

theorem State.raise_eq : s.raise x = s.writeResults { out := [], res := 0, fp := 0 } x.code := rfl

@[simp] theorem State.endCommand_ok : s.endCommand (.ok r) = s.writeResults r 0 := rfl

@[simp] theorem State.endCommand_error :
    s.endCommand (.error x) = s.writeResults { out := [], res := 0, fp := 0 } x.code := rfl

@[simp] theorem State.endCommand_cmd : (s.endCommand e).cmd = s.cmd := by cases e <;> rfl
@[simp] theorem State.endCommand_msg : (s.endCommand e).msg = s.msg := by cases e <;> rfl
@[simp] theorem State.endCommand_arg : (s.endCommand e).arg = s.arg := by cases e <;> rfl
@[simp] theorem State.endCommand_script : (s.endCommand e).script = s.script := by cases e <;> rfl
@[simp] theorem State.endCommand_reads : (s.endCommand e).reads = s.reads := by cases e <;> rfl

/-- R30: a command that has ended leaves a value in every result register. -/
@[simp] theorem State.endCommand_out_ne : (s.endCommand e).out ≠ none := by cases e <;> simp
@[simp] theorem State.endCommand_res_ne : (s.endCommand e).res ≠ none := by cases e <;> simp
@[simp] theorem State.endCommand_fp_ne : (s.endCommand e).fp ≠ none := by cases e <;> simp
@[simp] theorem State.endCommand_status_ne : (s.endCommand e).status ≠ none := by cases e <;> simp

end Sys2Proof.Machine
end

