-- ==== Sys2Proof/Laws/Ops.lean ====
section
/-! SUPPORT. One lemma per shared operation: what it can do. -/

namespace Sys2Proof.Machine

/-! ### Byte sequences -/

theorem startsWith_iff (S T : Bytes) : startsWith S T = true ↔ S.take T.length = T := by
  rw [startsWith, List.isPrefixOf_iff_prefix, List.prefix_iff_eq_take, eq_comm]

@[simp] theorem length_slice (S : Bytes) (a b : Nat) : (slice S a b).length = min b S.length - a := by
  simp [slice]

/-- Overwriting inside a sequence keeps its length. -/
theorem length_overwrite (S T : Bytes) (a : Nat) (h : a + T.length ≤ S.length) :
    (overwrite S a T).length = S.length := by
  simp [overwrite]; omega

/-- R41: inside the buffer, `byteAt` is the byte there. -/
theorem byteAt_of_lt (S : Bytes) (i : Nat) (h : i < S.length) : byteAt S i = S[i] := by
  simp [byteAt, h]

@[simp] theorem length_padName (A : Bytes) : (padName A).length = 16 := by
  simp [padName, rep, nameLen]

/-! ### How a command ends -/

/-- Every command ends once, with `finish` or with `raise` (R205); none stops the machine. -/
theorem exec_ends (i : Instr) (s : State) : ∃ e, exec i s = .next (s.endCommand e) := by
  cases i <;> exact ⟨_, rfl⟩

/-- A CMD write stores the code and ends a command (R23). -/
theorem writeCmd_ends (w : Byte) (s : State) :
    ∃ e, writeCmd w s = .next (State.endCommand { s with cmd := w } e) := by
  unfold writeCmd
  split
  · exact exec_ends _ _
  · exact ⟨.error .illegalCommand, rfl⟩

/-- The ending of a command as a function of its inputs. -/
def endingOf (i : Instr) (msg arg : Bytes) : Ending Config.device.fpBits :=
  match i with
  | .isebd => isebdEnding _ msg
  | .ispd => ispdEnding _ msg
  | .isbankpart => isbankpartEnding _ msg
  | .matchreply => matchreplyEnding _ msg
  | .classify => classifyEnding _ msg
  | .pack7 => pack7Ending _ msg
  | .unpack7 => unpack7Ending _ msg
  | .unpack7s => unpack7sEnding _ msg
  | .getname => getnameEnding _ msg
  | .getnum => getnumEnding _ msg
  | .rename => renameEnding _ msg arg
  | .fprint => fprintEnding _ msg

/-- What a command does is decided by MSG and ARG alone. -/
theorem exec_eq_endingOf (i : Instr) (s : State) : exec i s = .next (s.endCommand (endingOf i s.msg s.arg)) := by
  cases i <;> rfl

/-! ### The host's accesses -/

theorem loadMsg_next {data : Bytes} {s t : State} (h : loadMsg data s = .next t) :
    data.length ≤ Config.device.maxMsgLen ∧ t = { s with msg := data } := by
  unfold loadMsg at h
  split at h
  · exact ⟨‹_›, by simpa using h.symm⟩
  · simp at h

theorem loadArg_next {data : Bytes} {s t : State} (h : loadArg data s = .next t) :
    data.length ≤ Config.device.maxArgLen ∧ t = { s with arg := data } := by
  unfold loadArg at h
  split at h
  · exact ⟨‹_›, by simpa using h.symm⟩
  · simp at h

theorem loadArgText_next {text : List Char} {s t : State} (h : loadArgText text s = .next t) :
    textIsBytes text = true ∧ (textBytes text).length ≤ Config.device.maxArgLen ∧ t = { s with arg := textBytes text } := by
  unfold loadArgText at h
  split at h
  · exact ⟨‹_›, loadArg_next h⟩
  · simp at h

theorem hostRead_next {r : Reg} {s t : State} (h : hostRead r s = .next t) :
    ∃ v, s.readReg r = some v ∧ t = { s with reads := s.reads ++ [(r, v)] } := by
  unfold hostRead at h
  split at h
  · exact ⟨_, ‹_›, by simpa using h.symm⟩
  · simp at h

theorem moveMsgOut_next {s t : State} (h : moveMsgOut s = .next t) :
    ∃ data, s.out = some data ∧
      t = { s with reads := s.reads ++ [(.out, .bytes data)], script := .loadMsg data :: s.script } := by
  unfold moveMsgOut at h
  split at h
  · exact ⟨_, ‹_›, by simpa using h.symm⟩
  · simp at h

end Sys2Proof.Machine
end

