-- ==== Sys2Proof/Laws/Metadata.lean ====
section
/-! SUPPORT. The classifier's predicates and the metadata operands, in the terms of Safety.lean. -/

namespace Sys2Proof.Machine

variable (c : Config) (S : Bytes)

/-- R101, R6: the preambles have the lengths of the fixed constants. -/
theorem length_preambles :
    (ebdPre c).length = ebdHdr ∧ (pdPre c).length = pdPrefixLen ∧ (bdrPre c).length = 6 ∧
      (inqPre c).length = 10 + c.inqId.length := by
  simp [ebdPre, pdPre, bdrPre, inqPre, Config.mfr, ebdHdr, pdPrefixLen]
  omega

theorem isEBD_iff : isEBD c S = true ↔ looksEBD c S := by
  simp [isEBD, startsWith_iff, ebdPre, Config.mfr, looksEBD, hasPrefix]

theorem isPD_iff : isPD c S = true ↔ looksPD c S := by
  simp [isPD, startsWith_iff, pdPre, Config.mfr, looksPD, hasPrefix]

theorem isBDR_iff : isBDR c S = true ↔ looksBDR c S := by
  simp [isBDR, startsWith_iff, bdrPre, Config.mfr, looksBDR, hasPrefix]

theorem inqMatch_iff : inqMatch c S = true ↔ looksReply c S := by
  simp [inqMatch, startsWith_iff, inqPre, looksReply, hasPrefix]

variable {c S}

/-- R107: the two dump preambles differ in byte 5. -/
theorem not_looksEBD_of_looksPD (h : looksPD c S) : ¬ looksEBD c S := by
  rintro ⟨-, he⟩
  have h5 := congrArg (·[5]?) he
  have p5 := congrArg (·[5]?) h.2
  simp at h5 p5
  rw [h5] at p5
  simp at p5

theorem shape_of_looksEBD (h : looksEBD c S) : shape c S = .ebd := by
  simp [shape, (isEBD_iff c S).2 h]

theorem shape_of_looksPD (h : looksPD c S) : shape c S = .pd := by
  have : ¬ isEBD c S = true := fun he => not_looksEBD_of_looksPD h ((isEBD_iff c S).1 he)
  simp [shape, this, (isPD_iff c S).2 h]

theorem patchData_eq_dumpData (h : Nat) : patchData h S = dumpData h S := rfl

/-- R160: the header length of a dump. -/
theorem hdr_of_hasHeader {h : Nat} (hh : hasHeader c S h) : (shape c S).hdr = some h := by
  obtain ⟨hp, rfl⟩ | ⟨he, rfl⟩ := hh
  · simp [shape_of_looksPD hp, Shape.hdr, pdHdr]
  · simp [shape_of_looksEBD he, Shape.hdr, ebdHdr]

/-- R162, R205: what `namedDump` answers for a dump. -/
theorem namedDump_of_hasHeader {h : Nat} (hh : hasHeader c S h) :
    namedDump c S =
      if (dumpData h S).length < 18 then .error .malformedMessage else .ok (h, dumpData h S) := by
  rw [namedDump, hdr_of_hasHeader hh]
  rfl

end Sys2Proof.Machine
end

