-- ==== Sys2Proof/Laws/PerInstr.lean ====
section
/-! SUPPORT. The laws that are made per command: the code of a command is a defined word (30_encoding.md R62) and decodes
to it. -/

namespace Sys2Proof.Laws.Encoding

/-- The command's code is well formed and is read back as the command. -/
def Statement (i : Instr) : Prop :=
  i.wf = true ∧ CommandWord.wf (encode i) = true ∧ decodeTableWord 8 (encode i).toNat = some i

theorem isebd : Statement .isebd := ⟨rfl, rfl, rfl⟩
theorem ispd : Statement .ispd := ⟨rfl, rfl, rfl⟩
theorem isbankpart : Statement .isbankpart := ⟨rfl, rfl, rfl⟩
theorem matchreply : Statement .matchreply := ⟨rfl, rfl, rfl⟩
theorem classify : Statement .classify := ⟨rfl, rfl, rfl⟩
theorem pack7 : Statement .pack7 := ⟨rfl, rfl, rfl⟩
theorem unpack7 : Statement .unpack7 := ⟨rfl, rfl, rfl⟩
theorem unpack7s : Statement .unpack7s := ⟨rfl, rfl, rfl⟩
theorem getname : Statement .getname := ⟨rfl, rfl, rfl⟩
theorem getnum : Statement .getnum := ⟨rfl, rfl, rfl⟩
theorem rename : Statement .rename := ⟨rfl, rfl, rfl⟩
theorem fprint : Statement .fprint := ⟨rfl, rfl, rfl⟩

end Sys2Proof.Laws.Encoding
end

