-- ==== Sys2Proof/Laws/Step.lean ====
section
/-! SUPPORT. What one step can do: the inversion lemma the invariants rest on. -/

namespace Sys2Proof.Machine

theorem step_nil {s : State} (h : s.script = []) : step s = .next s := by
  simp [step, hostStep, h]

theorem step_cons {s : State} {line : ScriptLine} {rest : List ScriptLine} (h : s.script = line :: rest) :
    step s = hostLine line { s with script := rest } := by
  simp [step, hostStep, h]

/-- Everything a line that answers a next state can do, guards included. -/
theorem hostLine_cases {line : ScriptLine} {s t : State} (h : hostLine line s = .next t) :
    (∃ w e, (line = .cmd w ∨ ∃ i, line = .command i ∧ w = encode i) ∧ t = State.endCommand { s with cmd := w } e) ∨
    (∃ data, line = .loadMsg data ∧ data.length ≤ Config.device.maxMsgLen ∧ t = { s with msg := data }) ∨
    (∃ data, (line = .loadArg data ∨ ∃ text, line = .loadArgText text ∧ data = textBytes text) ∧
      data.length ≤ Config.device.maxArgLen ∧ t = { s with arg := data }) ∨
    (∃ r v, line = .read r ∧ s.readReg r = some v ∧ t = { s with reads := s.reads ++ [(r, v)] }) ∨
    (line = .reset ∧ t = { State.reset with script := s.script, reads := s.reads }) ∨
    (∃ data, line = .moveMsgOut ∧ s.out = some data ∧
      t = { s with reads := s.reads ++ [(.out, .bytes data)], script := .loadMsg data :: s.script }) ∨
    (∃ r v, line = .writeResult r v ∧ t = s) := by
  cases line with
  | command i =>
    obtain ⟨e, he⟩ := writeCmd_ends (encode i) s
    refine .inl ⟨encode i, e, .inr ⟨i, rfl, rfl⟩, ?_⟩
    simpa [hostLine, he] using h.symm
  | cmd w =>
    obtain ⟨e, he⟩ := writeCmd_ends w s
    refine .inl ⟨w, e, .inl rfl, ?_⟩
    simpa [hostLine, he] using h.symm
  | loadMsg data => exact .inr (.inl ⟨data, rfl, loadMsg_next h⟩)
  | loadArg data => exact .inr (.inr (.inl ⟨data, .inl rfl, loadArg_next h⟩))
  | loadArgText text => exact .inr (.inr (.inl ⟨_, .inr ⟨text, rfl, rfl⟩, (loadArgText_next h).2⟩))
  | read r =>
    obtain ⟨v, hv, ht⟩ := hostRead_next h
    exact .inr (.inr (.inr (.inl ⟨r, v, rfl, hv, ht⟩)))
  | reset => exact .inr (.inr (.inr (.inr (.inl ⟨rfl, by simpa [hostLine, resetBlock] using h.symm⟩))))
  | moveMsgOut =>
    obtain ⟨data, hd, ht⟩ := moveMsgOut_next h
    exact .inr (.inr (.inr (.inr (.inr (.inl ⟨data, rfl, hd, ht⟩)))))
  | writeResult r v =>
    exact .inr (.inr (.inr (.inr (.inr (.inr ⟨r, v, rfl, by simpa [hostLine, ignoreWrite] using h.symm⟩)))))

end Sys2Proof.Machine
end

