-- ==== Sys2Proof/Tests/Slice0.lean ====
section
/-! SUPPORT. Tests of the model against the spec's own words and vectors (95_test_vectors.md), the smoke tests of
WellFormed, and for each claim with hypotheses a witness that meets them. -/

namespace Sys2Proof.Tests

open Sys2Proof Sys2Proof.Machine

/-! ### Well-formedness: what each check refuses -/

/-- 0x40: its group is reserved (30_encoding.md R61). -/
theorem test_grp_reserved : CommandWord.grpDefined 0x40 = false := by decide
/-- 0x15: group 0x1 has no function 0x5 (R62). -/
theorem test_fn_reserved : CommandWord.fnDefined 0x15 = false := by decide
theorem test_word_reserved : CommandWord.wf 0x23 = false ∧ CommandWord.wf 0x33 = true := by decide
/-- U+0100 cannot stand in a script's text (R70). -/
theorem test_text_refused : ScriptLine.wf (.loadArgText ['B', Char.ofNat 0x100]) = false := by decide

/-! ### Decoding, from the words of 30_encoding.md R62 -/

theorem test_decode_classifier : decode 0b00010011#8 = .ok .matchreply := by decide
theorem test_decode_codec : decode 0b00100010#8 = .ok .unpack7s := by decide
theorem test_decode_metadata : decode 0b00110001#8 = .ok .getnum := by decide
/-- The boundaries of the four reserved ranges (R64). -/
theorem test_decode_reserved :
    [0x00#8, 0x0F#8, 0x15#8, 0x1F#8, 0x23#8, 0x2F#8, 0x34#8, 0xFF#8].all
      (fun w => decide (decode w = .error (.reservedCode w))) = true := by decide
/-- The row of ISEBD in opcode_table.json. -/
theorem test_table_row : decodeTableWord 8 16 = some .isebd ∧ decodeTableWord 8 0 = none := by decide

/-! ### Test configuration T (95_test_vectors.md section 2.0), FP_HASH left symbolic -/

abbrev configT (hash : Bytes → BitVec 32) : Config where
  sox := 0xF0
  eox := 0xF7
  mfr0 := 0x11
  mfr1 := 0x22
  mfr2 := 0x33
  mfr3 := 0x44
  fpBits := 32
  fpHash := hash
  maxMsgLen := 64
  maxArgLen := 32

/-- T with a hash that no test but FPRINT's looks at. -/
abbrev T : Config := configT fun _ => 0

/-- `pack7(U_T)`, section 2.4. -/
def packedT : Bytes :=
  [0x05, 0x0C, 0x5C, 0x0A, 0x26, 0x2E, 0x1B, 0x10, 0x50, 0x42, 0x11, 0x03, 0x12, 0x06, 0x08, 0x10, 0x20, 0x40, 0x00,
    0x01, 0x02, 0x68, 0x1F, 0x40, 0x7F, 0x01]
def msgPD : Bytes := [0xF0, 0x11, 0x22, 0x33, 0x44, 0x00, 0x01, 0x05] ++ packedT ++ [0xF7]
def msgEBD : Bytes := [0xF0, 0x11, 0x22, 0x33, 0x44, 0x02, 0x10] ++ packedT ++ [0xF7]
/-- "Warm Pad 1" and six spaces. -/
def nameT : Bytes := [0x57, 0x61, 0x72, 0x6D, 0x20, 0x50, 0x61, 0x64, 0x20, 0x31, 0x20, 0x20, 0x20, 0x20, 0x20, 0x20]
/-- "Bass". -/
def bass : Bytes := [0x42, 0x61, 0x73, 0x73]
/-- The Device Inquiry Reply of V-K12. -/
def replyT : Bytes :=
  [0xF0, 0x7E, 0x7F, 0x06, 0x02, 0x00, 0x00, 0x11, 0x22, 0x33, 0x44, 0x00, 0x00, 0x00, 0x01, 0xF7]

/-! ### Classifier (section 2.3) -/

/-- V-K5, V-K7. -/
theorem test_isebd :
    isebdEnding T [0xF0, 0x11, 0x22, 0x33, 0x44, 0x02, 0x10] = .ok ⟨[], 1, 0⟩ ∧
    isebdEnding T [0xF0, 0x11, 0x22, 0x33, 0x44, 0x02] = .ok ⟨[], 0, 0⟩ := by decide
/-- V-K2, V-K10. -/
theorem test_ispd :
    ispdEnding T [0xF0, 0x11, 0x22, 0x33, 0x44, 0x00] = .ok ⟨[], 1, 0⟩ ∧
    ispdEnding T [0xF0, 0x11, 0x22, 0x33, 0x44, 0x01, 0x00, 0x05, 0xF7] = .ok ⟨[], 0, 0⟩ := by decide
/-- R112's example, V-K8. -/
theorem test_isbankpart :
    isbankpartEnding T [0xF0, 0x11, 0x22, 0x33, 0x44, 0x00, 0x03, 0x7F, 0x00, 0xF7] = .ok ⟨[], 1, 0⟩ ∧
    isbankpartEnding T [0xF0, 0x11, 0x22, 0x33, 0x44, 0x0A, 0x02, 0xF7] = .ok ⟨[], 0, 0⟩ := by decide
/-- V-K12, V-K14 (one byte short of the prefix). -/
theorem test_matchreply :
    matchreplyEnding T replyT = .ok ⟨[], 1, 0⟩ ∧ matchreplyEnding T (replyT.take 13) = .ok ⟨[], 0, 0⟩ := by decide
/-- V-K17 (raw bytes, not masked), V-K3 (no program byte). -/
theorem test_classify_dump :
    classifyEnding T [0xF0, 0x11, 0x22, 0x33, 0x44, 0x00, 0x90, 0xC1, 0x00, 0xF7] = .ok ⟨[], 0x00C19003, 0⟩ ∧
    classifyEnding T [0xF0, 0x11, 0x22, 0x33, 0x44, 0x00, 0x01] = .ok ⟨[], 0, 0⟩ := by decide
/-- V-K8, V-K12, V-K6. -/
theorem test_classify_kinds :
    classifyEnding T [0xF0, 0x11, 0x22, 0x33, 0x44, 0x0A, 0x02, 0xF7] = .ok ⟨[], 0x00000204, 0⟩ ∧
    classifyEnding T replyT = .ok ⟨[], 1, 0⟩ ∧
    classifyEnding T [0xF0, 0x11, 0x22, 0x33, 0x44, 0x02, 0x10, 0x00, 0xF7] = .ok ⟨[], 2, 0⟩ := by decide

/-! ### Codec (section 2.1) -/

/-- The shifting pattern at L = 15. -/
theorem test_pack7_pattern :
    pack7 [0x11, 0x22, 0x33, 0x44, 0x55, 0x66, 0x77, 0x88, 0x99, 0xAA, 0xBB, 0xCC, 0xDD, 0xEE, 0xFF] =
      [0x11, 0x44, 0x4C, 0x21, 0x54, 0x4A, 0x59, 0x3B, 0x08, 0x33, 0x2A, 0x5D, 0x4B, 0x39, 0x37, 0x77, 0x7F, 0x01] := by
  decide
/-- All ones at L = 7 and L = 0. -/
theorem test_pack7_flush :
    pack7 (List.replicate 7 0xFF) = List.replicate 8 0x7F ++ [0x00] ∧ pack7 [] = [0x00] := by decide
/-- V-C17 (every rolling offset), V-C11 (bit 7 masked). -/
theorem test_unpack7 :
    unpack7 [0x01, 0x02, 0x03, 0x04, 0x05, 0x06, 0x07, 0x08] = [0x01, 0xC1, 0x80, 0x50, 0x30, 0x1C, 0x10] ∧
    unpack7 [0xFF, 0x81] = [0xFF] := by decide
/-- V-C4 (the source's own example), V-C19 (a partial group). -/
theorem test_unpack7_partial :
    unpack7 [0x7F, 0x01, 0x02, 0x00] = [0xFF, 0x80, 0x00] ∧
    unpack7 [0x7F, 0x01, 0x02, 0x00, 0x7F] = [0xFF, 0x80, 0x00, 0xF0] := by decide
/-- V-C14, V-C16. -/
theorem test_unpack7s :
    unpack7sEnding T (List.replicate 8 0x7F) = .error .codecPrecondition ∧
    unpack7sEnding T (List.replicate 9 0x7F) = .ok ⟨List.replicate 7 0xFF, 0, 0⟩ := by decide

/-! ### Metadata (section 2.4) -/

/-- V-M1, V-M2. -/
theorem test_getname :
    getnameEnding T msgPD = .ok ⟨nameT, 0, 0⟩ ∧ getnameEnding T msgEBD = .ok ⟨nameT, 0, 0⟩ := by decide
/-- V-M18 (17 bytes of PatchData), V-M3. -/
theorem test_getname_errors :
    getnameEnding T (msgPD.take 28 ++ [0xF7]) = .error .malformedMessage ∧
    getnameEnding T replyT = .error .unsupportedShape := by decide
/-- V-M4, V-M6, V-M5. -/
theorem test_getnum :
    getnumEnding T msgPD = .ok ⟨[], 133, 0⟩ ∧
    getnumEnding T [0xF0, 0x11, 0x22, 0x33, 0x44, 0x00, 0x02, 0x01, 0xF7] = .ok ⟨[], 257, 0⟩ ∧
    getnumEnding T msgEBD = .ok ⟨[], 0, 0⟩ := by decide
/-- V-M6a, V-M6b. -/
theorem test_getnum_errors :
    getnumEnding T [0xF0, 0x11, 0x22, 0x33, 0x44, 0x00, 0x01] = .error .malformedMessage ∧
    getnumEnding T [0xF0, 0x11, 0x22, 0x33, 0x44, 0x0A, 0x02, 0xF7] = .error .unsupportedShape := by decide
/-- V-M7. -/
theorem test_rename :
    renameEnding T msgPD bass = .ok ⟨[0xF0, 0x11, 0x22, 0x33, 0x44, 0x00, 0x01, 0x05, 0x05, 0x0C, 0x08, 0x0A, 0x36, 0x6E,
      0x1C, 0x10, 0x20, 0x40, 0x00, 0x01, 0x02, 0x04, 0x08, 0x10, 0x20, 0x40, 0x00, 0x01, 0x02, 0x68, 0x1F, 0x40, 0x7F,
      0x01, 0xF7], 0, 0⟩ := by decide
/-- V-M22: a data block of 24 bytes grows by one. -/
theorem test_rename_grows :
    renameEnding T (msgPD.take 32 ++ [0xF7]) bass = .ok ⟨[0xF0, 0x11, 0x22, 0x33, 0x44, 0x00, 0x01, 0x05, 0x05, 0x0C,
      0x08, 0x0A, 0x36, 0x6E, 0x1C, 0x10, 0x20, 0x40, 0x00, 0x01, 0x02, 0x04, 0x08, 0x10, 0x20, 0x40, 0x00, 0x01, 0x02,
      0x68, 0x1F, 0x40, 0x00, 0xF7], 0, 0⟩ := by decide
/-- V-M12, V-M13, for every hash. -/
theorem test_fprint (hash : Bytes → BitVec 32) :
    fprintEnding (configT hash) msgPD =
      .ok ⟨[], 0, hash ([0x05, 0x06] ++ List.replicate 16 0x00 ++ [0x40, 0x7F, 0x80, 0xFF])⟩ ∧
    fprintEnding (configT hash) msgEBD =
      .ok ⟨[], 0, hash ([0x05, 0x06] ++ List.replicate 16 0x00 ++ [0x40, 0x7F, 0x80, 0xFF])⟩ := ⟨rfl, rfl⟩
/-- V-M15 (the raw message), V-M19. -/
theorem test_fprint_fallback (hash : Bytes → BitVec 32) :
    fprintEnding (configT hash) [0xF0, 0x11, 0x22, 0x33, 0x44, 0x0A, 0x02, 0xF7] =
      .ok ⟨[], 0, hash [0xF0, 0x11, 0x22, 0x33, 0x44, 0x0A, 0x02, 0xF7]⟩ ∧
    fprintEnding (configT hash) (msgPD.take 28 ++ [0xF7]) = .error .malformedMessage := ⟨rfl, rfl⟩

/-! ### Single steps of the machine, under any configuration -/

/-- A state with one script line to perform. -/
abbrev withLine (l : ScriptLine) : State := { State.reset with script := [l] }

/-- R140's corner case: PACK7 of the reset MSG, as the first command after reset. -/
theorem test_step_pack7 :
    step (State.reset.withFetchWord 8 0x20) = .next { State.reset with
      cmd := 0x20, out := some [0x00], res := some 0, fp := some 0, status := some 0 } := rfl
/-- V-C7: UNPACK7S of `[]`. -/
theorem test_step_unpack7s :
    step (State.reset.withFetchWord 8 0x22) = .next { State.reset with
      cmd := 0x22, out := some [], res := some 0, fp := some 0, status := some 3 } := rfl
/-- V-S6. -/
theorem test_step_illegal :
    step (withLine (.cmd 0xFF)) = .next { State.reset with
      cmd := 0xFF, out := some [], res := some 0, fp := some 0, status := some 4 } := rfl
/-- V-M16. -/
theorem test_step_fprint :
    step (withLine (.command .fprint)) = .next { State.reset with
      cmd := 0x33, out := some [], res := some 0, fp := some (Config.device.fpHash []), status := some 0 } := rfl
/-- Program P5: a READ of STATUS after reset is a fault. -/
theorem test_step_read_fault : step (withLine (.read .status)) = .fault (.noValue .status) := rfl
/-- R70: text above 0xFF is no script line. -/
theorem test_step_text : step (withLine (.loadArgText [Char.ofNat 0x100])) = .refused .textNotBytes := rfl

/-! ### Witnesses: states of any configuration that meet the hypotheses of the claims -/

/-- A program dump of bank 1, program 5 that carries `data`. -/
def pdState (data : Bytes) : State :=
  { State.reset with msg := pdPre Config.device ++ [0x01, 0x05] ++ data ++ [Config.device.eox], arg := bass }

/-- An edit-buffer dump that carries `data`. -/
def ebdState (data : Bytes) : State :=
  { State.reset with msg := ebdPre Config.device ++ data ++ [Config.device.eox], arg := bass }

theorem pdState_looksPD (data : Bytes) : looksPD Config.device (pdState data).msg := by
  simp [looksPD, hasPrefix, pdState, pdPre, Config.mfr]

theorem ebdState_looksEBD (data : Bytes) : looksEBD Config.device (ebdState data).msg := by
  simp [looksEBD, hasPrefix, ebdState, ebdPre, Config.mfr]

theorem pdState_hasHeader (data : Bytes) : hasHeader Config.device (pdState data).msg 8 := .inl ⟨pdState_looksPD data, rfl⟩

theorem ebdState_hasHeader (data : Bytes) : hasHeader Config.device (ebdState data).msg 7 :=
  .inr ⟨ebdState_looksEBD data, rfl⟩

theorem pdState_data (data : Bytes) : dumpData 8 (pdState data).msg = unpack7 data := by
  simp [dumpData, pdState, pdPre, Config.mfr]

theorem ebdState_data (data : Bytes) : dumpData 7 (ebdState data).msg = unpack7 data := by
  simp [dumpData, ebdState, ebdPre, Config.mfr]

/-- For the claims over a dump with a name field, one of each shape, at the shortest PatchData (18 bytes from 21) and one
byte below it (17 from 20): GetnameGivesTheNameField, RenameReplacesTheNameField, FprintHashesTheDataWithoutItsName,
StatusOfEachCommand. -/
theorem witness_dumps :
    (hasHeader Config.device (pdState (packedT.take 21)).msg 8 ∧
      (dumpData 8 (pdState (packedT.take 21)).msg).length = 18) ∧
    (hasHeader Config.device (pdState (packedT.take 20)).msg 8 ∧
      (dumpData 8 (pdState (packedT.take 20)).msg).length = 17) ∧
    (hasHeader Config.device (ebdState (packedT.take 21)).msg 7 ∧
      (dumpData 7 (ebdState (packedT.take 21)).msg).length = 18) ∧
    (hasHeader Config.device (ebdState (packedT.take 20)).msg 7 ∧
      (dumpData 7 (ebdState (packedT.take 20)).msg).length = 17) := by
  refine ⟨⟨pdState_hasHeader _, ?_⟩, ⟨pdState_hasHeader _, ?_⟩, ⟨ebdState_hasHeader _, ?_⟩, ⟨ebdState_hasHeader _, ?_⟩⟩
  · rw [pdState_data]; rfl
  · rw [pdState_data]; rfl
  · rw [ebdState_data]; rfl
  · rw [ebdState_data]; rfl

/-- For the clauses about shape OTHER: the reset MSG. -/
theorem witness_other : ¬ looksEBD Config.device State.reset.msg ∧ ¬ looksPD Config.device State.reset.msg := by
  simp [looksEBD, looksPD, State.reset]

/-- For GetnumGivesTheSlot: a program dump of 6 or 7 bytes (too short), one of 8 (its boundary), an edit-buffer dump. -/
theorem witness_getnum :
    (let S := pdPre Config.device; looksPD Config.device S ∧ S.length = 6) ∧
    (let S := pdPre Config.device ++ [0x01]; looksPD Config.device S ∧ S.length = 7) ∧
    (let S := pdPre Config.device ++ [0x01, 0x05]; looksPD Config.device S ∧ S.length = 8) ∧
    looksEBD Config.device (ebdPre Config.device) := by
  simp [looksPD, looksEBD, hasPrefix, pdPre, ebdPre, Config.mfr]

/-- For the claims about a renamed message: a dump of each shape on which RENAME ends OK. -/
theorem witness_renamed :
    (∃ t o, exec .rename (pdState packedT) = .next t ∧ t.out = some o) ∧
    ∃ t o, exec .rename (ebdState packedT) = .next t ∧ t.out = some o := by
  constructor
  · refine ⟨_, renamed 8 (pdState packedT).msg (unpack7 packedT) bass, exec_eq_endingOf _ _, ?_⟩
    rw [endingOf, renameEnding, namedDump_of_hasHeader (pdState_hasHeader _), pdState_data]
    rfl
  · refine ⟨_, renamed 7 (ebdState packedT).msg (unpack7 packedT) bass, exec_eq_endingOf _ _, ?_⟩
    rw [endingOf, renameEnding, namedDump_of_hasHeader (ebdState_hasHeader _), ebdState_data]
    rfl

/-- For the same claims and FingerprintIgnoresNameAndSlot: those dumps carry 22 bytes of PatchData, equal in both. -/
theorem witness_fingerprint :
    hasHeader Config.device (pdState packedT).msg 8 ∧ hasHeader Config.device (ebdState packedT).msg 7 ∧
    18 ≤ (dumpData 8 (pdState packedT).msg).length ∧
    dumpData 8 (pdState packedT).msg = dumpData 7 (ebdState packedT).msg := by
  refine ⟨pdState_hasHeader _, ebdState_hasHeader _, ?_, ?_⟩
  · rw [pdState_data]; decide
  · rw [pdState_data, ebdState_data]

/-- For ClassifyGivesTheMessageKind and ClassifyAgreesWithThePredicates, each test of R109 can be the first to hold. -/
theorem witness_kinds :
    looksReply Config.device (inqPre Config.device) ∧ looksEBD Config.device (ebdPre Config.device) ∧
    looksPD Config.device (pdPre Config.device ++ [0x01, 0x05]) ∧
    looksBDR Config.device (bdrPre Config.device ++ [0x02]) := by
  simp [looksReply, looksEBD, looksPD, looksBDR, hasPrefix, inqPre, ebdPre, pdPre, bdrPre, Config.mfr]

/-- For ReservedCodesEndIllegalCommand: both ends of each range. -/
theorem witness_reserved :
    ∀ w ∈ [0x00#8, 0x0F#8, 0x15#8, 0x1F#8, 0x23#8, 0x2F#8, 0x34#8, 0xFF#8],
      (withLine (.cmd w)).script = [.cmd w] ∧
      (w.toNat ≤ 0x0F ∨ (0x15 ≤ w.toNat ∧ w.toNat ≤ 0x1F) ∨ (0x23 ≤ w.toNat ∧ w.toNat ≤ 0x2F) ∨ 0x34 ≤ w.toNat) := by
  decide

/-- For CmdWriteRunsTheCommand and ResultsHoldValuesUntilReset: a script that begins with a command. -/
theorem witness_cmd :
    (withLine (.cmd 0x21)).script = [.cmd 0x21] ∧ decode 0x21 = .ok .unpack7 ∧
    (withLine (.command .getnum)).script = [.command .getnum] ∧
    ∃ t, step (withLine (.command .getnum)) = .next t ∧ t.out ≠ none := ⟨rfl, rfl, rfl, _, rfl, State.endCommand_out_ne _ _⟩

/-- For Unpack7sChecksTheLength: a length each way, at the boundary 8. -/
theorem witness_unpack7s :
    ({ State.reset with msg := List.replicate 8 0x7F } : State).msg.length % 8 = 0 ∧
    ({ State.reset with msg := List.replicate 9 0x7F } : State).msg.length % 8 ≠ 0 := by decide

/-- For UnpackCommandsUndoPack7, EveryCommandEnds…, CommandsLeaveInputsUnchanged, UnusedResBitsAreZero, OutNeverOverflows
and RepeatedCommandGivesTheSame: a command that ends in a next state. -/
theorem witness_command_ends :
    ∃ t, exec .pack7 { State.reset with msg := [0xFF, 0x80, 0x00] } = .next t ∧
      t.out = some [0x7F, 0x01, 0x02, 0x00] ∧ t.res = some 0 ∧ t.status = some 0 := ⟨_, rfl, rfl, rfl, rfl⟩

/-- For OnlyFprintWritesAFingerprint: FPRINT that ends OK, and another command. -/
theorem witness_fprint :
    (∃ t, exec .fprint State.reset = .next t ∧ t.status = some 0) ∧ ∃ t, exec .getname State.reset = .next t ∧
      t.status = some 1 := ⟨⟨_, rfl, rfl⟩, _, rfl, rfl⟩

/-- For ClassifierReadsOnlyTheHeader: two messages that differ only past any length. -/
theorem witness_header_only (n : Nat) :
    ∃ s s' t t' : State, s.msg ≠ s'.msg ∧ s.msg.take n = s'.msg.take n ∧ exec .classify s = .next t ∧
      exec .classify s' = .next t' := by
  refine ⟨{ State.reset with msg := List.replicate n 0 }, { State.reset with msg := List.replicate n 0 ++ [1] }, _, _,
    ?_, ?_, exec_eq_endingOf _ _, exec_eq_endingOf _ _⟩
  · simp
  · simp

/-- For ResultsDependOnMsgAndNameOnly: RENAME from states that differ in ARG past byte 16, in CMD and in the results. -/
theorem witness_same_results :
    ∃ s s' t t' : State, s ≠ s' ∧ s.msg = s'.msg ∧ s.arg ≠ s'.arg ∧ s.arg.take 16 = s'.arg.take 16 ∧
      exec .rename s = .next t ∧ exec .rename s' = .next t' := by
  refine ⟨{ State.reset with arg := List.replicate 16 1 },
    { State.reset with arg := List.replicate 17 1, cmd := 0x32, out := some [] }, _, _, ?_, rfl, ?_, rfl, rfl, rfl⟩ <;>
    decide

/-- For LoadMsgFitsOrFaults: a load at the capacity and one a byte above it. -/
theorem witness_loadMsg :
    ∃ (s s' : State) (d d' : Bytes), s.script = [.loadMsg d] ∧ d.length ≤ Config.device.maxMsgLen ∧
      s'.script = [.loadMsg d'] ∧ Config.device.maxMsgLen < d'.length := by
  refine ⟨withLine (.loadMsg (List.replicate Config.device.maxMsgLen 0)),
    withLine (.loadMsg (List.replicate (Config.device.maxMsgLen + 1) 0)), _, _, rfl, ?_, rfl, ?_⟩ <;> simp

/-- For LoadArgFitsOrFaults: bytes and text at the capacity and one above it, the text of characters U+00FF. -/
theorem witness_loadArg :
    (∃ (s s' : State) (d d' : Bytes), s.script = [.loadArg d] ∧ d.length ≤ Config.device.maxArgLen ∧
      s'.script = [.loadArg d'] ∧ Config.device.maxArgLen < d'.length) ∧
    ∃ (s s' : State) (d d' : List Char), s.script = [.loadArgText d] ∧ d.length ≤ Config.device.maxArgLen ∧
      (∀ ch ∈ d, ch.toNat ≤ 0xFF) ∧ s'.script = [.loadArgText d'] ∧ Config.device.maxArgLen < d'.length ∧
      ∀ ch ∈ d', ch.toNat ≤ 0xFF := by
  refine ⟨⟨withLine (.loadArg (List.replicate Config.device.maxArgLen 0)),
    withLine (.loadArg (List.replicate (Config.device.maxArgLen + 1) 0)), _, _, rfl, ?_, rfl, ?_⟩,
    withLine (.loadArgText (List.replicate Config.device.maxArgLen (Char.ofNat 0xFF))),
    withLine (.loadArgText (List.replicate (Config.device.maxArgLen + 1) (Char.ofNat 0xFF))), _, _, rfl, ?_, ?_, rfl, ?_,
    ?_⟩ <;> simp

/-- A READ of RES after UNPACK7S of `[]` and one of STATUS return the values R142 gives (0 and 3). -/
theorem test_step_read_results :
    step { State.reset with script := [.read .res, .read .status], res := some 0, status := some 3 } =
      .next { State.reset with
        script := [.read .status], res := some 0, status := some 3, reads := [(.res, .word 0)] } ∧
    step { State.reset with script := [.read .status], res := some 0, status := some 3 } =
      .next { State.reset with res := some 0, status := some 3, reads := [(.status, .byte 3)] } := ⟨rfl, rfl⟩

/-- For ReadReturnsTheValueOrFaults: a register that holds a value and one that holds none. -/
theorem witness_reads :
    ((withLine (.read .cmd)).script = [.read .cmd] ∧ (withLine (.read .cmd)).readReg .cmd = some (.byte 0x00)) ∧
    (withLine (.read .out)).script = [.read .out] ∧ (withLine (.read .out)).readReg .out = none := by decide

/-- For MoveReadsOutThenLoadsMsg: an OUT that fits and one that does not; and none. -/
theorem witness_move :
    (∃ s : State, s.script = [.moveMsgOut] ∧ s.out = some [0x00] ∧ [(0x00 : Byte)].length ≤ Config.device.maxMsgLen) ∧
    (∃ s : State, ∃ o, s.script = [.moveMsgOut] ∧ s.out = some o ∧ Config.device.maxMsgLen < o.length) ∧
    ∃ s : State, s.script = [.moveMsgOut] ∧ s.out = none := by
  refine ⟨⟨{ withLine .moveMsgOut with out := some [0x00] }, rfl, rfl, ?_⟩,
    ⟨{ withLine .moveMsgOut with out := some (List.replicate (Config.device.maxMsgLen + 1) 0) }, _, rfl, rfl, by simp⟩,
    withLine .moveMsgOut, rfl, rfl⟩
  exact Nat.le_trans (by decide) Config.device.maxMsgLen_ge

/-- For ResetSetsEveryRegister, WritesToResultsAreIgnored, IdleBlockHoldsItsRegisters. -/
theorem witness_lines :
    (withLine .reset).script = [.reset] ∧
    (withLine (.writeResult .status (.byte 7))).script = [.writeResult .status (.byte 7)] ∧
    State.reset.script = [] := ⟨rfl, rfl, rfl⟩

/-- For OnlyTheNamedLinesChangeARegister: each register does change under its line. -/
theorem witness_changes :
    (∃ t, step (withLine (.loadMsg [0xF0])) = .next t ∧ t.msg ≠ []) ∧
    (∃ t, step (withLine (.loadArgText ['B'])) = .next t ∧ t.arg ≠ []) ∧
    ∃ t, step (withLine (.cmd 0x10)) = .next t ∧ t.cmd ≠ 0x00 ∧ t.results ≠ State.reset.results := by
  have hm := Config.device.maxMsgLen_ge
  have ha := Config.device.maxArgLen_ge
  refine ⟨⟨{ State.reset with msg := [0xF0] }, ?_, by simp⟩, ⟨{ State.reset with arg := [0x42] }, ?_, by simp⟩,
    _, rfl, by decide, ?_⟩
  · have : 1 ≤ Config.device.maxMsgLen := by omega
    simp [step, hostStep, hostLine, loadMsg, State.reset, this]
  · have : 1 ≤ Config.device.maxArgLen := by omega
    simp [step, hostStep, hostLine, loadArgText, loadArg, textIsBytes, textBytes, State.reset, this]
  · exact fun h => State.endCommand_out_ne _ _ (congrArg Prod.fst h)

/-- For EveryStepKeepsTheInvariant: a state with results that meets it and takes a step, and one without results. -/
theorem witness_inv :
    ∃ s t : State, s.Inv ∧ step s = .next t ∧ s.out ≠ none ∧ s.script ≠ [] := by
  refine ⟨{ withLine (.cmd 0x21) with
    out := some [], res := some 0, fp := some 0, status := some 4, msg := [0x7F], arg := bass }, _,
    ⟨?_, ?_, .inr ⟨[], 0, 0, 4, rfl, rfl, rfl, rfl, ?_, ?_, ?_⟩⟩, rfl, by simp, by simp⟩
  · exact Nat.le_trans (by decide) Config.device.maxMsgLen_ge
  · exact Nat.le_trans (by decide) Config.device.maxArgLen_ge
  · simp
  · decide
  · simp

end Sys2Proof.Tests
end

section
/-! PROOFS. A command's ending as what it writes: its results and its status, and which of the three data registers each
command has for its result (10_state.md R26 to R29). -/

namespace Sys2Proof.Machine

/-! ### Results and status of an ending -/

/-- What an ending writes to OUT, RES and FP: its results, cleared when it is an error (R200, R201). -/
def Ending.results {w : Nat} : Ending w → Results w
  | .ok r => r
  | .error _ => { out := [], res := 0, fp := 0 }

/-- What an ending writes to STATUS (R202). -/
def Ending.status {w : Nat} : Ending w → Byte
  | .ok _ => statusOK
  | .error x => x.code

@[simp] theorem Ending.results_ok {w : Nat} (r : Results w) : Ending.results (.ok r) = r := rfl

@[simp] theorem Ending.results_error {w : Nat} (x : ErrorStatus) :
    Ending.results (w := w) (.error x) = { out := [], res := 0, fp := 0 } := rfl

theorem State.endCommand_eq (s : State) (e : Ending Config.device.fpBits) :
    s.endCommand e = s.writeResults e.results e.status := by
  cases e <;> rfl

theorem ErrorStatus.code_ne_zero (x : ErrorStatus) : x.code ≠ 0 := by
  cases x <;> decide

theorem Ending.status_le_four {w : Nat} (e : Ending w) : e.status.toNat ≤ 4 := by
  cases e with
  | ok r => exact Nat.zero_le 4
  | error x => cases x <;> simp [Ending.status, ErrorStatus.code]

/-- R201: an error status stands beside cleared results. -/
theorem Ending.results_cleared {w : Nat} {e : Ending w} (h : e.status ≠ 0) :
    e.results = { out := [], res := 0, fp := 0 } := by
  cases e with
  | ok r => exact absurd rfl h
  | error x => rfl

/-- R202: only a `finish` ends with status OK. -/
theorem Ending.ok_of_status_eq_zero {w : Nat} {e : Ending w} (h : e.status = 0) : e = .ok e.results := by
  cases e with
  | ok r => rfl
  | error x => exact absurd h x.code_ne_zero

/-- Inversion of `exec`: the next state is the old one with the four result registers written. -/
theorem exec_next {i : Instr} {s t : State} (h : exec i s = .next t) :
    t = s.writeResults (endingOf i s.msg s.arg).results (endingOf i s.msg s.arg).status := by
  rw [exec_eq_endingOf, State.endCommand_eq] at h
  exact (Host.Outcome.next.inj h).symm

/-- How the command with a given code ends; a reserved code ends with IllegalCommand (R64, R204). -/
def codeEnding (w : Byte) (msg arg : Bytes) : Ending Config.device.fpBits :=
  match decode w with
  | .ok i => endingOf i msg arg
  | .error _ => .error .illegalCommand

theorem codeEnding_of_decode {w : Byte} {i : Instr} (h : decode w = .ok i) (msg arg : Bytes) :
    codeEnding w msg arg = endingOf i msg arg := by
  simp [codeEnding, h]

theorem codeEnding_of_reserved {w : Byte} {x : Reject} (h : decode w = .error x) (msg arg : Bytes) :
    codeEnding w msg arg = .error .illegalCommand := by
  simp [codeEnding, h]

theorem writeCmd_of_decode {w : Byte} {i : Instr} (h : decode w = .ok i) (s : State) :
    writeCmd w s = exec i { s with cmd := w } := by
  simp [writeCmd, h]

/-- R23, R47: a CMD write stores the code and writes the four results of the command with that code. -/
theorem writeCmd_eq_codeEnding (w : Byte) (s : State) :
    writeCmd w s = .next (State.endCommand { s with cmd := w } (codeEnding w s.msg s.arg)) := by
  cases h : decode w with
  | ok i => rw [writeCmd_of_decode h, codeEnding_of_decode h, exec_eq_endingOf]
  | error x =>
    rw [codeEnding_of_reserved h]
    simp [writeCmd, h, execIllegal, State.raise_eq]

/-- R62: a command's code decodes to it. -/
theorem decode_encode (i : Instr) : decode (encode i) = .ok i := by
  cases i <;> rfl

/-! ### How each command with an error or a choice of results ends -/

section
variable (c : Config) (S : Bytes)

/-- R142: the two ends of UNPACK7S. -/
theorem unpack7sEnding_cases :
    (∃ x, unpack7sEnding c S = .error x) ∨ unpack7sEnding c S = .ok { out := unpack7 S, res := 0, fp := 0 } := by
  unfold unpack7sEnding
  split
  · exact .inr rfl
  · exact .inl ⟨_, rfl⟩

/-- R160 to R162: what `namedDump` answers is the header length of a dump and its PatchData, 18 bytes or more. -/
theorem namedDump_ok {h : Nat} {U : Bytes} (hd : namedDump c S = .ok (h, U)) :
    (shape c S).hdr = some h ∧ U = patchData h S ∧ nameFieldEnd ≤ U.length := by
  unfold namedDump at hd
  split at hd
  · simp at hd
  next k hk =>
    split at hd
    · simp at hd
    next hlen =>
      obtain ⟨rfl, rfl⟩ : k = h ∧ patchData k S = U := by simpa using hd
      exact ⟨hk, rfl, Nat.le_of_not_lt hlen⟩

/-- R163: GETNAME ends with an error or with the name field of a named dump. -/
theorem getnameEnding_cases :
    (∃ x, getnameEnding c S = .error x) ∨
    ∃ h U, namedDump c S = .ok (h, U) ∧ getnameEnding c S = .ok { out := nameField U, res := 0, fp := 0 } := by
  unfold getnameEnding
  split
  · exact .inl ⟨_, rfl⟩
  · exact .inr ⟨_, _, ‹_›, rfl⟩

/-- R166: RENAME ends with an error or with the renamed message of a named dump. -/
theorem renameEnding_cases (A : Bytes) :
    (∃ x, renameEnding c S A = .error x) ∨
    ∃ h U, namedDump c S = .ok (h, U) ∧ renameEnding c S A = .ok { out := renamed h S U A, res := 0, fp := 0 } := by
  unfold renameEnding
  split
  · exact .inl ⟨_, rfl⟩
  · exact .inr ⟨_, _, ‹_›, rfl⟩

/-- R27, R164: two bytes give a slot number of at most 255 * 128 + 255. -/
theorem resSlot_le (bank program : Byte) : (resSlot bank program).toNat ≤ 32895 := by
  have hb := bank.isLt
  have hp := program.isLt
  simp only [resSlot, bankSize, BitVec.toNat_ofNat]
  omega

/-- R164: GETNUM ends with an error or with a slot number alone. -/
theorem getnumEnding_cases :
    (∃ x, getnumEnding c S = .error x) ∨
    ∃ r : Word32, r.toNat ≤ 32895 ∧ getnumEnding c S = .ok { out := [], res := r, fp := 0 } := by
  unfold getnumEnding
  split
  · exact .inr ⟨0, by decide, rfl⟩
  · split
    · exact .inl ⟨_, rfl⟩
    · exact .inr ⟨_, resSlot_le _ _, rfl⟩
  · exact .inl ⟨_, rfl⟩

/-- R170: FPRINT ends with an error or with a value of FP_HASH alone. -/
theorem fprintEnding_cases :
    (∃ x, fprintEnding c S = .error x) ∨
    ∃ input, fprintEnding c S = .ok { out := [], res := 0, fp := c.fpHash input } := by
  unfold fprintEnding
  split
  · exact .inr ⟨_, rfl⟩
  all_goals
    split
    · exact .inl ⟨_, rfl⟩
    · exact .inr ⟨_, rfl⟩

end

/-! ### The one data register each command gives its result in -/

/-- R26, R27, R28: of OUT, RES and FP, the register a command gives its result in. -/
def resultReg : Instr → ResultReg
  | .isebd | .ispd | .isbankpart | .matchreply | .classify | .getnum => .res
  | .pack7 | .unpack7 | .unpack7s | .getname | .rename => .out
  | .fprint => .fp

/-- R26 to R28: every command leaves cleared the data registers that are not its own. -/
theorem endingOf_clears_others (i : Instr) (msg arg : Bytes) :
    (resultReg i ≠ .out → (endingOf i msg arg).results.out = []) ∧
    (resultReg i ≠ .res → (endingOf i msg arg).results.res = 0) ∧
    (resultReg i ≠ .fp → (endingOf i msg arg).results.fp = 0) := by
  cases i with
  | isebd | ispd | isbankpart | matchreply | classify => exact ⟨fun _ => rfl, fun h => absurd rfl h, fun _ => rfl⟩
  | pack7 | unpack7 => exact ⟨fun h => absurd rfl h, fun _ => rfl, fun _ => rfl⟩
  | unpack7s =>
    obtain ⟨x, he⟩ | he := unpack7sEnding_cases Config.device msg <;> simp [endingOf, he, resultReg]
  | getname =>
    obtain ⟨x, he⟩ | ⟨h, U, -, he⟩ := getnameEnding_cases Config.device msg <;> simp [endingOf, he, resultReg]
  | rename =>
    obtain ⟨x, he⟩ | ⟨h, U, -, he⟩ := renameEnding_cases Config.device msg arg <;> simp [endingOf, he, resultReg]
  | getnum =>
    obtain ⟨x, he⟩ | ⟨r, -, he⟩ := getnumEnding_cases Config.device msg <;> simp [endingOf, he, resultReg]
  | fprint =>
    obtain ⟨x, he⟩ | ⟨input, he⟩ := fprintEnding_cases Config.device msg <;> simp [endingOf, he, resultReg]

end Sys2Proof.Machine
end

section
/-! PROOFS. Lengths: of what the codec writes (41_codec.md R133, R134) and of OUT after any command (10_state.md R26). -/

namespace Sys2Proof.Machine

/-- R134 from any point of the loop: one byte per input byte, one per group completed, and the flush. -/
theorem length_pack7From (k : Nat) (carry : Byte) (U : Bytes) (hk : 1 ≤ k) (hk7 : k ≤ 7) :
    (pack7From k carry U).length = U.length + (U.length + 7 - k) / 7 + 1 := by
  induction U generalizing k carry with
  | nil => simp; omega
  | cons u rest ih =>
    by_cases h1 : k = 1
    · subst h1
      rw [pack7From_wrap, List.length_cons, List.length_cons, ih 7 0 (by omega) le_rfl, List.length_cons]
      omega
    · rw [pack7From_step k carry u rest (by omega), List.length_cons, ih (k - 1) _ (by omega) (by omega),
        List.length_cons]
      omega

/-- R134: the length of a packing. -/
@[simp] theorem length_pack7 (U : Bytes) : (pack7 U).length = U.length + U.length / 7 + 1 := by
  simp [pack7, length_pack7From]

/-- R133 from any point of the loop: the whole bytes among the 7 bits of each packed byte still to be used. -/
theorem length_unpack7From (r : Nat) (P : Bytes) (hr : r < 7) :
    (unpack7From r P).length = (7 * P.length - r) / 8 := by
  induction P using List.twoStepInduction generalizing r with
  | nil => simp
  | singleton a => simp; omega
  | cons_cons a b rest ihWrap ihNext =>
    by_cases h6 : r = 6
    · subst h6
      rw [unpack7From_wrap, List.length_cons, ihWrap 0 (by omega), List.length_cons, List.length_cons]
      omega
    · rw [unpack7From_step r a b rest (by omega), List.length_cons, ihNext b (r + 1) (by omega), List.length_cons,
        List.length_cons, List.length_cons]
      omega

/-- R133: the length of an unpacking. -/
@[simp] theorem length_unpack7 (P : Bytes) : (unpack7 P).length = 7 * P.length / 8 := by
  simp [unpack7, length_unpack7From]

@[simp] theorem length_patchData (h : Nat) (S : Bytes) : (patchData h S).length = 7 * (S.length - 1 - h) / 8 := by
  simp [patchData, dataBlock]

/-- R166: replacing the name field keeps the length of PatchData. -/
theorem length_withName {U name : Bytes} (hn : name.length = nameLen) (hU : nameFieldEnd ≤ U.length) :
    (withName U name).length = U.length := by
  apply length_overwrite
  rw [hn]
  exact hU

/-- R167: a renamed message is at most one byte longer. -/
theorem length_renamed_le {h : Nat} {S A : Bytes} (hU : nameFieldEnd ≤ (patchData h S).length) :
    (renamed h S (patchData h S) A).length ≤ S.length + 1 := by
  have hpack := length_pack7 (withName (patchData h S) (padName A))
  rw [length_withName (length_padName A) hU] at hpack
  simp only [length_patchData] at hU hpack
  simp only [renamed, List.length_append, length_slice, List.length_singleton, hpack]
  simp only [nameFieldEnd, nameOff, nameLen] at hU
  omega

/-- R26: no command writes more to OUT than the packing of MSG would take. -/
theorem length_out_le (i : Instr) (msg arg : Bytes) :
    (endingOf i msg arg).results.out.length ≤ msg.length + msg.length / 7 + 1 := by
  by_cases hi : resultReg i = .out
  case neg => simp [(endingOf_clears_others i msg arg).1 hi]
  cases i with
  | isebd | ispd | isbankpart | matchreply | classify | getnum | fprint => cases hi
  | pack7 => exact (length_pack7 msg).le
  | unpack7 =>
    have := length_unpack7 msg
    simp only [endingOf, unpack7Ending, Ending.results_ok]
    omega
  | unpack7s =>
    obtain ⟨x, he⟩ | he := unpack7sEnding_cases Config.device msg
    · simp [endingOf, he]
    · simp only [endingOf, he, Ending.results_ok, length_unpack7]
      omega
  | getname =>
    obtain ⟨x, he⟩ | ⟨h, U, hd, he⟩ := getnameEnding_cases Config.device msg
    · simp [endingOf, he]
    · obtain ⟨-, rfl, -⟩ := namedDump_ok _ _ hd
      simp only [endingOf, he, Ending.results_ok, nameField, length_slice, length_patchData]
      omega
  | rename =>
    obtain ⟨x, he⟩ | ⟨h, U, hd, he⟩ := renameEnding_cases Config.device msg arg
    · simp [endingOf, he]
    · obtain ⟨-, rfl, hU⟩ := namedDump_ok _ _ hd
      have hlen := length_renamed_le (A := arg) hU
      simp only [endingOf, he, Ending.results_ok]
      omega

end Sys2Proof.Machine
end

section
/-! PROOFS. The invariant of the machine: it holds at reset and every line of a host script keeps it (O52, O53). -/

namespace Sys2Proof.Machine

/-- The capacity of OUT is enough for any command on a MSG within its own (R26). -/
theorem length_out_le_maxOutLen (w : Byte) {msg : Bytes} (arg : Bytes) (hm : msg.length ≤ Config.device.maxMsgLen) :
    (codeEnding w msg arg).results.out.length ≤ Config.device.maxOutLen := by
  cases h : decode w with
  | error x => simp [codeEnding_of_reserved h]
  | ok i =>
    rw [codeEnding_of_decode h]
    calc _ ≤ msg.length + msg.length / 7 + 1 := length_out_le i msg arg
      _ ≤ Config.device.maxOutLen := by unfold Config.maxOutLen; omega

/-- A command's end gives all four results, legal and within the capacity of OUT (R29, R30, R201). -/
theorem State.resultsInv_endCommand (s : State) {e : Ending Config.device.fpBits}
    (ho : e.results.out.length ≤ Config.device.maxOutLen) : (s.endCommand e).resultsInv := by
  rw [State.endCommand_eq]
  refine .inr ⟨_, _, _, _, rfl, rfl, rfl, rfl, ho, e.status_le_four, fun hst => ?_⟩
  simp [e.results_cleared hst]

theorem writeCmd_keeps_inv {w : Byte} {s t : State} (hs : s.Inv) (h : writeCmd w s = .next t) : t.Inv := by
  obtain ⟨hmsg, harg, -⟩ := hs
  rw [writeCmd_eq_codeEnding] at h
  obtain rfl := Host.Outcome.next.inj h
  refine ⟨?_, ?_, State.resultsInv_endCommand _ (length_out_le_maxOutLen w s.arg hmsg)⟩
  · simpa using hmsg
  · simpa using harg

theorem State.inv_reset : State.reset.Inv :=
  ⟨Nat.zero_le _, Nat.zero_le _, .inl ⟨rfl, rfl, rfl, rfl⟩⟩

/-- Every line of a host script keeps the invariant. -/
theorem hostLine_keeps_inv {line : ScriptLine} {s t : State} (hs : s.Inv) (h : hostLine line s = .next t) : t.Inv := by
  obtain ⟨hmsg, harg, hres⟩ := hs
  cases line with
  | command i => exact writeCmd_keeps_inv ⟨hmsg, harg, hres⟩ h
  | cmd w => exact writeCmd_keeps_inv ⟨hmsg, harg, hres⟩ h
  | loadMsg data =>
    obtain ⟨hlen, rfl⟩ := loadMsg_next h
    exact ⟨hlen, harg, hres⟩
  | loadArg data =>
    obtain ⟨hlen, rfl⟩ := loadArg_next h
    exact ⟨hmsg, hlen, hres⟩
  | loadArgText text =>
    obtain ⟨-, hlen, rfl⟩ := loadArgText_next h
    exact ⟨hmsg, hlen, hres⟩
  | read r =>
    obtain ⟨v, -, rfl⟩ := hostRead_next h
    exact ⟨hmsg, harg, hres⟩
  | reset =>
    obtain rfl := Host.Outcome.next.inj h
    exact State.inv_reset
  | moveMsgOut =>
    obtain ⟨data, -, rfl⟩ := moveMsgOut_next h
    exact ⟨hmsg, harg, hres⟩
  | writeResult r v =>
    obtain rfl := Host.Outcome.next.inj h
    exact ⟨hmsg, harg, hres⟩

/-- Settles O52: empty buffers fit, and no result register holds a value. -/
theorem resetMeetsTheInvariant : Obligations.ResetMeetsTheInvariant := State.inv_reset

/-- Settles O53: an idle step changes nothing, and every line keeps the invariant; a CMD write because OUT stays within
its capacity and an error clears the results. -/
theorem everyStepKeepsTheInvariant : Obligations.EveryStepKeepsTheInvariant := by
  intro s t hs hstep
  cases hscript : s.script with
  | nil =>
    rw [step_nil hscript] at hstep
    obtain rfl := Host.Outcome.next.inj hstep
    exact hs
  | cons line rest =>
    rw [step_cons hscript] at hstep
    exact hostLine_keeps_inv (s := { s with script := rest }) hs hstep

end Sys2Proof.Machine
end

section
/-! PROOFS. What every command leaves unchanged, what it can write to RES, FP and OUT, and what that depends on (O37, O39,
O40, O41, O42). -/

namespace Sys2Proof.Machine

/-! ### RES (R27) -/

theorem resPredicate_le_one (b : Bool) : (resPredicate b).toNat ≤ 1 := by
  cases b <;> decide

/-- R27: no field of CLASSIFY's RES reaches bits 31:24. -/
theorem resKind_top (tag bank program : Byte) : (resKind tag bank program).extractLsb' 24 8 = 0#8 := by
  apply BitVec.eq_of_getLsbD_eq
  intro j hj
  interval_cases j <;> simp [resKind]

/-- R27: the low byte of CLASSIFY's RES is the tag. -/
theorem resKind_low (tag bank program : Byte) {start len : Nat} (h : start + len ≤ 8) :
    (resKind tag bank program).extractLsb' start len = tag.extractLsb' start len := by
  apply BitVec.eq_of_getLsbD_eq
  intro j hj
  have h8 : start + j < 8 := by omega
  have h16 : start + j < 16 := by omega
  have h32 : start + j < 32 := by omega
  simp [resKind, h8, h16, h32]

/-- R108: a kind's tag is at most 4, so it fits in RES[3:0]. -/
theorem MessageKind.tag_bits (k : MessageKind) :
    k.tag.extractLsb' 4 4 = 0#4 ∧ (k.tag.extractLsb' 0 4).toNat ≤ 4 := by
  cases k <;> simp [MessageKind.tag]

/-- R27: what a predicate command gives in RES. -/
theorem res_le_one_of_predicate {i : Instr} (hi : i ∈ [.isebd, .ispd, .isbankpart, .matchreply]) (msg arg : Bytes) :
    (endingOf i msg arg).results.res.toNat ≤ 1 := by
  simp only [List.mem_cons, List.not_mem_nil, or_false] at hi
  obtain rfl | rfl | rfl | rfl := hi <;> exact resPredicate_le_one _

/-- R27, R114: the bits of CLASSIFY's RES outside its three fields are 0, and the tag is a defined one. -/
theorem res_fields_of_classify (msg arg : Bytes) :
    let r := (endingOf .classify msg arg).results.res
    r.extractLsb' 24 8 = 0#8 ∧ r.extractLsb' 4 4 = 0#4 ∧ (r.extractLsb' 0 4).toNat ≤ 4 := by
  obtain ⟨hhigh, hlow⟩ := (kind Config.device msg).tag_bits
  refine ⟨resKind_top _ _ _, (resKind_low _ _ _ le_rfl).trans hhigh, ?_⟩
  exact (congrArg BitVec.toNat (resKind_low _ _ _ (by decide))).trans_le hlow

/-- R27, R164: GETNUM's RES, 0 when it ends with an error. -/
theorem res_le_of_getnum (msg arg : Bytes) : (endingOf .getnum msg arg).results.res.toNat ≤ 32895 := by
  obtain ⟨x, he⟩ | ⟨r, hr, he⟩ := getnumEnding_cases Config.device msg
  · simp [endingOf, he]
  · simpa [endingOf, he] using hr

/-- R27: the six commands that give their result in RES. -/
theorem resultReg_eq_res_iff (i : Instr) :
    resultReg i = .res ↔ i ∈ [.isebd, .ispd, .isbankpart, .matchreply, .classify, .getnum] := by
  cases i <;> decide

/-- Settles O39, by the RES of each kind of command. -/
theorem unusedResBitsAreZero : Obligations.UnusedResBitsAreZero := by
  intro i s t r st hexec hr hst
  obtain rfl := exec_next hexec
  obtain rfl : (endingOf i s.msg s.arg).results.res = r := by simpa using hr
  obtain rfl : (endingOf i s.msg s.arg).status = st := by simpa using hst
  refine ⟨fun hi => res_le_one_of_predicate hi _ _, ?_, ?_, fun hi => ?_, fun hne => ?_⟩
  · rintro rfl
    exact res_fields_of_classify _ _
  · rintro rfl
    exact res_le_of_getnum _ _
  · obtain ⟨-, hres, -⟩ := endingOf_clears_others i s.msg s.arg
    exact hres fun h => hi ((resultReg_eq_res_iff i).1 h)
  · rw [Ending.results_cleared hne]

/-! ### The inputs, FP and OUT -/

/-- Settles O37: a command writes the four result registers only. -/
theorem commandsLeaveInputsUnchanged : Obligations.CommandsLeaveInputsUnchanged := by
  intro i s t hexec
  obtain rfl := exec_next hexec
  exact ⟨rfl, rfl, rfl, fun _ => rfl, fun _ => rfl, rfl, rfl⟩

/-- R28: FP is the result register of FPRINT alone. -/
theorem resultReg_eq_fp_iff (i : Instr) : resultReg i = .fp ↔ i = .fprint := by
  cases i <;> decide

/-- R28, R170: an FPRINT that ends OK gives a value of FP_HASH. -/
theorem fp_of_fprint_ok {msg arg : Bytes} (h : (endingOf .fprint msg arg).status = 0) :
    ∃ input, (endingOf .fprint msg arg).results.fp = Config.device.fpHash input := by
  obtain ⟨x, he⟩ | ⟨input, he⟩ := fprintEnding_cases Config.device msg
  · simp only [endingOf, he] at h
    exact absurd h x.code_ne_zero
  · exact ⟨input, by simp [endingOf, he]⟩

/-- Settles O40: FP is cleared by every command but FPRINT, and by every error. -/
theorem onlyFprintWritesAFingerprint : Obligations.OnlyFprintWritesAFingerprint := by
  intro i s t hexec
  obtain rfl := exec_next hexec
  simp only [State.writeResults_fp, State.writeResults_status, Option.some.injEq, ne_eq]
  constructor
  · rintro rfl hst
    exact fp_of_fprint_ok hst
  · rintro (hi | hst)
    · obtain ⟨-, -, hfp⟩ := endingOf_clears_others i s.msg s.arg
      exact hfp fun h => hi ((resultReg_eq_fp_iff i).1 h)
    · rw [Ending.results_cleared hst]

/-- Settles O41, by the bound on OUT in terms of MSG's own length. -/
theorem outNeverOverflows : Obligations.OutNeverOverflows := by
  intro i s t o n hexec ho hn
  obtain rfl := exec_next hexec
  obtain rfl : (endingOf i s.msg s.arg).results.out = o := by simpa using ho
  calc _ ≤ s.msg.length + s.msg.length / 7 + 1 := length_out_le i s.msg s.arg
    _ ≤ n + n / 7 + 1 := by omega

/-! ### What the results depend on -/

/-- R165: the name is built from the first 16 bytes of ARG. -/
theorem padName_congr {A A' : Bytes} (h : A.take 16 = A'.take 16) : padName A = padName A' := by
  simp only [padName, nameLen, h]

/-- R25: RENAME is the one command whose ending depends on ARG, and then on its first 16 bytes alone. -/
theorem endingOf_congr_arg {i : Instr} {arg arg' : Bytes} (h : i = .rename → arg.take 16 = arg'.take 16) (msg : Bytes) :
    endingOf i msg arg = endingOf i msg arg' := by
  cases i with
  | rename => simp only [endingOf, renameEnding, renamed, padName_congr (h rfl)]
  | isebd | ispd | isbankpart | matchreply | classify | pack7 | unpack7 | unpack7s | getname | getnum | fprint => rfl

/-- What the block shows after a command is that command's ending and nothing else of the state. -/
theorem results_writeResults (s s' : State) (r : Results Config.device.fpBits) (st : Byte) :
    (s.writeResults r st).results = (s'.writeResults r st).results := rfl

/-- Settles O42: the ending is a function of MSG and the name, and the results are the ending. -/
theorem resultsDependOnMsgAndNameOnly : Obligations.ResultsDependOnMsgAndNameOnly := by
  intro i s s' t t' hmsg harg hexec hexec'
  obtain rfl := exec_next hexec
  obtain rfl := exec_next hexec'
  rw [hmsg, endingOf_congr_arg harg]
  exact results_writeResults _ _ _ _

end Sys2Proof.Machine
end

section
/-! PROOFS. The host's accesses: reset, CMD writes, loads, reads and ignored writes (O1, O4, O5, O44 to O47, O51). -/

namespace Sys2Proof.Machine

/-- Settles O1: a RESET line steps to the reset state with the script and the reads kept. -/
theorem resetSetsEveryRegister : Obligations.ResetSetsEveryRegister := by
  refine ⟨⟨rfl, rfl, rfl, rfl, rfl, rfl, rfl⟩, fun s rest hscript => ?_⟩
  exact ⟨_, step_cons hscript, rfl, rfl, rfl, rfl, rfl, rfl, rfl⟩

/-- Settles O4: the line is a CMD write, whose code decodes to the command. -/
theorem cmdWriteRunsTheCommand : Obligations.CmdWriteRunsTheCommand := by
  constructor
  · intro s w i rest hscript hdecode
    exact (step_cons hscript).trans (writeCmd_of_decode hdecode _)
  · intro s i rest hscript
    exact (step_cons hscript).trans (writeCmd_of_decode (decode_encode i) _)

/-- The line that places a whole byte is a CMD write of that byte. -/
theorem cmdLine_toNat (w : Byte) : cmdLine 8 w.toNat = .cmd w := by
  simp [cmdLine, Nat.mod_eq_of_lt w.isLt]

/-- Settles O5: the placed line is the CMD write of O4. -/
theorem placedCommandRunsNext : Obligations.PlacedCommandRunsNext := by
  intro s i
  have hscript : (s.withFetchWord 8 (encode i).toNat).script = .cmd (encode i) :: s.script := by
    rw [State.withFetchWord, cmdLine_toNat]
  exact cmdWriteRunsTheCommand.1 _ _ _ _ hscript (decode_encode i)

theorem loadMsg_of_le {data : Bytes} (h : data.length ≤ Config.device.maxMsgLen) (s : State) :
    loadMsg data s = .next { s with msg := data } := if_pos h

theorem loadMsg_of_lt {data : Bytes} (h : Config.device.maxMsgLen < data.length) (s : State) :
    loadMsg data s = .fault .msgTooLong := if_neg h.not_ge

theorem loadArg_of_le {data : Bytes} (h : data.length ≤ Config.device.maxArgLen) (s : State) :
    loadArg data s = .next { s with arg := data } := if_pos h

theorem loadArg_of_lt {data : Bytes} (h : Config.device.maxArgLen < data.length) (s : State) :
    loadArg data s = .fault .argTooLong := if_neg h.not_ge

/-- R70: a text of bytes is loaded as its character codes. -/
theorem loadArgText_of_bytes {text : List Char} (h : ∀ ch ∈ text, ch.toNat ≤ 0xFF) (s : State) :
    loadArgText text s = loadArg (textBytes text) s := by
  refine if_pos (List.all_eq_true.2 fun ch hch => ?_)
  simpa using Nat.lt_succ_of_le (h ch hch)

@[simp] theorem length_textBytes (text : List Char) : (textBytes text).length = text.length :=
  List.length_map _

/-- R70: a text of bytes keeps its character codes. -/
theorem toNat_textBytes {text : List Char} (h : ∀ ch ∈ text, ch.toNat ≤ 0xFF) :
    (textBytes text).map BitVec.toNat = text.map Char.toNat := by
  rw [textBytes, List.map_map]
  refine List.map_congr_left fun ch hch => ?_
  exact Nat.mod_eq_of_lt (Nat.lt_succ_of_le (h ch hch))

/-- Settles O44, by the two cases of the capacity test. -/
theorem loadMsgFitsOrFaults : Obligations.LoadMsgFitsOrFaults := by
  intro s data rest hscript
  rw [step_cons hscript]
  exact ⟨fun h => loadMsg_of_le h _, fun h => loadMsg_of_lt h _⟩

/-- Settles O45: a text is loaded as its character codes, as many as it has characters. -/
theorem loadArgFitsOrFaults : Obligations.LoadArgFitsOrFaults := by
  constructor
  · intro s data rest hscript
    rw [step_cons hscript]
    exact ⟨fun h => loadArg_of_le h _, fun h => loadArg_of_lt h _⟩
  · intro s text rest hscript htext
    rw [step_cons hscript, hostLine, loadArgText_of_bytes htext, ← length_textBytes text]
    exact ⟨fun h => ⟨_, loadArg_of_le h _, toNat_textBytes htext⟩, fun h => loadArg_of_lt h _⟩

theorem hostRead_of_some {r : Reg} {s : State} {v : RegValue} (h : s.readReg r = some v) :
    hostRead r s = .next { s with reads := s.reads ++ [(r, v)] } := by
  simp [hostRead, h]

theorem hostRead_of_none {r : Reg} {s : State} (h : s.readReg r = none) : hostRead r s = .fault (.noValue r) := by
  simp [hostRead, h]

/-- A read sees registers only, so the script does not matter to it. -/
theorem readReg_script (s : State) (rest : List ScriptLine) (r : Reg) :
    State.readReg { s with script := rest } r = s.readReg r := by
  cases r <;> rfl

/-- Settles O46, by whether the register holds a value. -/
theorem readReturnsTheValueOrFaults : Obligations.ReadReturnsTheValueOrFaults := by
  intro s reg rest hscript
  rw [step_cons hscript]
  refine ⟨fun v hv => ?_, fun hv => ?_, ⟨rfl, rfl, rfl⟩, rfl, rfl, rfl, rfl⟩
  · exact hostRead_of_some ((readReg_script s rest reg).trans hv)
  · exact hostRead_of_none ((readReg_script s rest reg).trans hv)

/-- Settles O47: the line only moves the script on. -/
theorem writesToResultsAreIgnored : Obligations.WritesToResultsAreIgnored := by
  intro s r v rest hscript
  exact step_cons hscript

/-! ### The results hold values until RESET (R30) -/

/-- R30: a CMD write leaves a value in every result register. -/
theorem writeCmd_gives_values {w : Byte} {s t : State} (h : writeCmd w s = .next t) :
    t.out ≠ none ∧ t.res ≠ none ∧ t.fp ≠ none ∧ t.status ≠ none := by
  rw [writeCmd_eq_codeEnding] at h
  obtain rfl := Host.Outcome.next.inj h
  simp

/-- R30: a line other than RESET leaves the four result registers as they are, or all with values. -/
theorem hostLine_results {line : ScriptLine} {s t : State} (hline : line ≠ .reset) (h : hostLine line s = .next t) :
    t.results = s.results ∨ (t.out ≠ none ∧ t.res ≠ none ∧ t.fp ≠ none ∧ t.status ≠ none) := by
  obtain ⟨w, e, -, rfl⟩ | ⟨data, -, -, rfl⟩ | ⟨data, -, -, rfl⟩ | ⟨r, v, -, -, rfl⟩ | ⟨hreset, -⟩ | ⟨data, -, -, rfl⟩ |
    ⟨r, v, -, rfl⟩ := hostLine_cases h
  · exact .inr (by simp)
  · exact .inl rfl
  · exact .inl rfl
  · exact .inl rfl
  · exact absurd hreset hline
  · exact .inl rfl
  · exact .inl rfl

/-- Settles O51: a CMD write gives all four values, and no other line but RESET touches them. -/
theorem resultsHoldValuesUntilReset : Obligations.ResultsHoldValuesUntilReset := by
  constructor
  · rintro s t rest (⟨w, hscript⟩ | ⟨i, hscript⟩) hstep
    · exact writeCmd_gives_values ((step_cons hscript).symm.trans hstep)
    · exact writeCmd_gives_values ((step_cons hscript).symm.trans hstep)
  · intro s t hreset hstep
    cases hscript : s.script with
    | nil =>
      rw [step_nil hscript] at hstep
      obtain rfl := Host.Outcome.next.inj hstep
      exact ⟨id, id, id, id⟩
    | cons line rest =>
      rw [step_cons hscript] at hstep
      have hline : line ≠ .reset := fun h => hreset rest (h ▸ hscript)
      obtain hsame | ⟨hout, hres, hfp, hst⟩ := hostLine_results hline hstep
      · obtain ⟨hout, hres, hfp, hst⟩ : t.out = s.out ∧ t.res = s.res ∧ t.fp = s.fp ∧ t.status = s.status := by
          simpa [State.results] using hsame
        simp [hout, hres, hfp, hst]
      · exact ⟨fun _ => hout, fun _ => hres, fun _ => hfp, fun _ => hst⟩

end Sys2Proof.Machine
end

section
/-! PROOFS. Repeating a command (20_memory.md R48, O43). -/

namespace Sys2Proof.Machine

/-- R47: the four result registers are written together, so a later write leaves nothing of an earlier one. -/
@[simp] theorem State.writeResults_writeResults (s : State) (r r' : Results Config.device.fpBits) (st st' : Byte) :
    (s.writeResults r st).writeResults r' st' = s.writeResults r' st' := rfl

/-- Settles O43: the first run leaves MSG and ARG, so the second has the same ending and writes the same four results
over the first's. -/
theorem repeatedCommandGivesTheSame : Obligations.RepeatedCommandGivesTheSame := by
  intro i s t hexec
  obtain rfl := exec_next hexec
  rw [exec_eq_endingOf, State.endCommand_eq, State.writeResults_msg, State.writeResults_arg,
    State.writeResults_writeResults]

end Sys2Proof.Machine
end

section
/-! PROOFS. The opcode map (30_encoding.md R61, R62) read backwards: a word that decodes is a command's code, so the
reserved codes (R64) decode to no command (O2, O6). -/

namespace Sys2Proof

/-- R61: the two fields are the whole word. -/
theorem CommandWord.toNat_eq_fields (w : Byte) : w.toNat = 16 * (grp w).toNat + (fn w).toNat := by
  simp only [grp, fn, BitVec.extractLsb'_toNat, Nat.shiftRight_eq_div_pow]
  omega

theorem toNat_encode_of_decodeClassifier {f : Nat} {i : Instr} (h : decodeClassifier f = some i) :
    (encode i).toNat = 16 + f := by
  unfold decodeClassifier at h
  split at h <;> cases h <;> rfl

theorem toNat_encode_of_decodeCodec {f : Nat} {i : Instr} (h : decodeCodec f = some i) :
    (encode i).toNat = 32 + f := by
  unfold decodeCodec at h
  split at h <;> cases h <;> rfl

theorem toNat_encode_of_decodeMetadata {f : Nat} {i : Instr} (h : decodeMetadata f = some i) :
    (encode i).toNat = 48 + f := by
  unfold decodeMetadata at h
  split at h <;> cases h <;> rfl

theorem toNat_encode_of_decodeFields {g f : Nat} {i : Instr} (h : decodeFields g f = some i) :
    (encode i).toNat = 16 * g + f := by
  unfold decodeFields at h
  split at h
  · exact toNat_encode_of_decodeClassifier h
  · exact toNat_encode_of_decodeCodec h
  · exact toNat_encode_of_decodeMetadata h
  · cases h

theorem decodeFields_of_decode {w : Byte} {i : Instr} (h : decode w = .ok i) :
    decodeFields (CommandWord.grp w).toNat (CommandWord.fn w).toNat = some i := by
  unfold decode at h
  split at h
  · obtain rfl := Except.ok.inj h
    assumption
  · cases h

/-- R62: a word that decodes to a command is that command's code. -/
theorem encode_of_decode {w : Byte} {i : Instr} (h : decode w = .ok i) : encode i = w := by
  apply BitVec.eq_of_toNat_eq
  rw [toNat_encode_of_decodeFields (decodeFields_of_decode h), ← CommandWord.toNat_eq_fields]

/-- R64: the ranges of the reserved codes. -/
def reservedCode (n : Nat) : Prop :=
  n ≤ 0x0F ∨ (0x15 ≤ n ∧ n ≤ 0x1F) ∨ (0x23 ≤ n ∧ n ≤ 0x2F) ∨ 0x34 ≤ n

/-- R62, R64: no command has a reserved code. -/
theorem not_reservedCode_encode (i : Instr) : ¬ reservedCode (encode i).toNat := by
  unfold reservedCode
  cases i <;> decide

theorem decode_of_reservedCode {w : Byte} (hw : reservedCode w.toNat) : ∃ x, decode w = .error x := by
  cases h : decode w with
  | ok i => exact absurd (encode_of_decode h ▸ hw) (not_reservedCode_encode i)
  | error x => exact ⟨x, rfl⟩

namespace Machine

/-- Settles O2: each code is the encoding of its row's command. -/
theorem opcodeMapDecodes : Obligations.OpcodeMapDecodes :=
  ⟨decode_encode .isebd, decode_encode .ispd, decode_encode .isbankpart, decode_encode .matchreply,
    decode_encode .classify, decode_encode .pack7, decode_encode .unpack7, decode_encode .unpack7s,
    decode_encode .getname, decode_encode .getnum, decode_encode .rename, decode_encode .fprint⟩

/-- Settles O6: a reserved code decodes to no command, so the write ends with IllegalCommand and cleared results. -/
theorem reservedCodesEndIllegalCommand : Obligations.ReservedCodesEndIllegalCommand := by
  intro s w rest hscript hw
  obtain ⟨x, hx⟩ := decode_of_reservedCode hw
  rw [step_cons hscript, hostLine, writeCmd_eq_codeEnding, codeEnding_of_reserved hx]
  rfl

end Machine
end Sys2Proof
end

section
/-! PROOFS. `MOVE MSG, OUT` (30_encoding.md R71, O48): the read of OUT, then the load of MSG. -/

namespace Sys2Proof.Machine

theorem moveMsgOut_of_some {s : State} {data : Bytes} (h : s.out = some data) :
    moveMsgOut s =
      .next { s with reads := s.reads ++ [(.out, .bytes data)], script := .loadMsg data :: s.script } := by
  simp [moveMsgOut, h]

theorem moveMsgOut_of_none {s : State} (h : s.out = none) : moveMsgOut s = .fault (.noValue .out) := by
  simp [moveMsgOut, h]

/-- Settles O48: the first step reads OUT or faults, and the second is the load of O44. -/
theorem moveReadsOutThenLoadsMsg : Obligations.MoveReadsOutThenLoadsMsg := by
  intro s rest hscript
  rw [step_cons hscript]
  refine ⟨fun hout => moveMsgOut_of_none hout, fun o hout => ⟨_, moveMsgOut_of_some hout, ?_⟩⟩
  exact loadMsgFitsOrFaults _ _ _ rfl

end Sys2Proof.Machine
end

section
/-! PROOFS. The classifier commands in the terms of Safety.lean (O7 to O11): each ends as `classified`, with RES decided by
the shapes of MSG. -/

namespace Sys2Proof.Machine

/-! ### The predicate commands (R110 to R113) -/

/-- R102: a command that ends as `classified` completes with RES its result, the other registers cleared. -/
theorem exec_of_classified {i : Instr} {s : State} {res : Word32}
    (h : endingOf i s.msg s.arg = classified _ res) :
    exec i s = .next { s with out := some [], res := some res, fp := some 0, status := some 0 } := by
  rw [exec_eq_endingOf, h]
  rfl

theorem resPredicate_eq_ite {b : Bool} {p : Prop} [Decidable p] (h : b = true ↔ p) :
    resPredicate b = if p then 1 else 0 := by
  simp only [resPredicate, h]

/-- R27, R102: a command whose ending is a predicate of MSG gives that predicate in RES. -/
theorem exec_of_predicate {i : Instr} {s : State} {b : Bool} {p : Prop} [Decidable p]
    (hend : endingOf i s.msg s.arg = classified _ (resPredicate b)) (hb : b = true ↔ p) :
    exec i s = .next { s with
      out := some [], res := some (if p then 1 else 0), fp := some 0, status := some 0 } :=
  resPredicate_eq_ite hb ▸ exec_of_classified hend

/-- Settles O7: ISEBD's predicate is the edit-buffer preamble test. -/
theorem isebdTestsTheEditBufferPreamble : Obligations.IsebdTestsTheEditBufferPreamble :=
  fun _ => exec_of_predicate rfl (isEBD_iff _ _)

/-- Settles O8: ISPD's predicate is the program-dump preamble test. -/
theorem ispdTestsTheProgramDumpPreamble : Obligations.IspdTestsTheProgramDumpPreamble :=
  fun _ => exec_of_predicate rfl (isPD_iff _ _)

/-- Settles O9: ISBANKPART and ISPD end with one and the same predicate. -/
theorem isbankpartAgreesWithIspd : Obligations.IsbankpartAgreesWithIspd :=
  ⟨fun _ => exec_of_predicate rfl (isPD_iff _ _), fun _ => rfl⟩

/-- Settles O10: MATCHREPLY's predicate is the reply prefix test. -/
theorem matchreplyTestsTheReplyPrefix : Obligations.MatchreplyTestsTheReplyPrefix :=
  fun _ => exec_of_predicate rfl (inqMatch_iff _ _)

/-! ### CLASSIFY (R109, R114) -/

/-- R114: the fields of CLASSIFY's RES are bytes side by side, so the shifts and ORs lose nothing. -/
theorem resKind_eq_append (tag bank program : Byte) :
    resKind tag bank program = 0#8 ++ program ++ bank ++ tag := by
  apply BitVec.eq_of_getLsbD_eq
  intro j hj
  change _ = (0#8 ++ program ++ bank ++ tag).getLsbD j
  simp only [BitVec.getLsbD_append]
  interval_cases j <;> simp [resKind]

/-- R109, with the tests written out. -/
theorem kind_eq_ite (c : Config) (S : Bytes) :
    kind c S =
      if looksReply c S then .deviceInquiryReply
      else if looksEBD c S then .editBufferDump
      else if looksPD c S ∧ 8 ≤ S.length then .programDump (byteAt S 6) (byteAt S 7)
      else if looksBDR c S then .bankDumpRequest (byteAt S 6)
      else .unknown := by
  simp only [kind, inqMatch_iff, isEBD_iff, isPD_iff, isBDR_iff, Bool.and_eq_true, decide_eq_true_eq, ge_iff_le]

/-- R109, R114: CLASSIFY's RES, by the first test that holds. -/
theorem resKind_kind (c : Config) (S : Bytes) :
    resKind (kind c S).tag (kind c S).bank (kind c S).program =
      if looksReply c S then 0#8 ++ 0#8 ++ 0#8 ++ 1#8
      else if looksEBD c S then 0#8 ++ 0#8 ++ 0#8 ++ 2#8
      else if looksPD c S ∧ 8 ≤ S.length then 0#8 ++ S.getD 7 0 ++ S.getD 6 0 ++ 3#8
      else if looksBDR c S then 0#8 ++ 0#8 ++ S.getD 6 0 ++ 4#8
      else 0 := by
  rw [resKind_eq_append, kind_eq_ite]
  split_ifs <;> rfl

/-- Settles O11: RES is laid out from the fields of the kind that R109's tests choose. -/
theorem classifyGivesTheMessageKind : Obligations.ClassifyGivesTheMessageKind :=
  fun s => exec_of_classified (congrArg (classified _) (resKind_kind Config.device s.msg))

end Sys2Proof.Machine
end

section
/-! PROOFS. The classifier reads a bounded part of MSG (40_classifier.md R102, O14): messages that agree on a prefix give
the same preamble tests, the same length tests and the same bytes inside it. -/

namespace Sys2Proof.Machine

section
variable {S S' : Bytes} {n : Nat} (h : S.take n = S'.take n)
include h

theorem startsWith_congr {T : Bytes} (hT : T.length ≤ n) : startsWith S T = startsWith S' T := by
  have htake : S.take T.length = S'.take T.length := by
    simpa [List.take_take, hT] using congrArg (List.take T.length) h
  rw [Bool.eq_iff_iff, startsWith_iff, startsWith_iff, htake]

theorem lt_length_congr {k : Nat} (hk : k < n) : k < S.length ↔ k < S'.length := by
  have hlen := congrArg List.length h
  simp only [List.length_take] at hlen
  omega

theorem byteAt_congr {i : Nat} (hi : i < n) : byteAt S i = byteAt S' i := by
  have hget := congrArg (·[i]?) h
  simp only [List.getElem?_take_of_lt hi] at hget
  simp only [byteAt, List.getD_eq_getElem?_getD, hget]

variable (c : Config)

theorem isEBD_congr (hn : 7 ≤ n) : isEBD c S = isEBD c S' := by
  obtain ⟨hpre, -⟩ := length_preambles c
  simp only [isEBD, gt_iff_lt, lt_length_congr h hn, startsWith_congr h (hpre.trans_le hn)]

theorem isPD_congr (hn : 6 ≤ n) : isPD c S = isPD c S' := by
  obtain ⟨-, hpre, -⟩ := length_preambles c
  simp only [isPD, gt_iff_lt, lt_length_congr h hn, startsWith_congr h (hpre.trans_le hn)]

theorem isBDR_congr (hn : 7 ≤ n) : isBDR c S = isBDR c S' := by
  obtain ⟨-, -, hpre, -⟩ := length_preambles c
  simp only [isBDR, gt_iff_lt, lt_length_congr h hn, startsWith_congr h (hpre.trans_le (Nat.le_of_succ_le hn))]

theorem inqMatch_congr (hn : 10 + c.inqId.length ≤ n) : inqMatch c S = inqMatch c S' := by
  obtain ⟨-, -, -, hpre⟩ := length_preambles c
  exact startsWith_congr h (hpre.trans_le hn)

/-- R109: the kind reads the preambles, the lengths up to 8 and bytes 6 and 7. -/
theorem kind_congr (h8 : 8 ≤ n) (hinq : 10 + c.inqId.length ≤ n) : kind c S = kind c S' := by
  have h7 : 7 < n := h8
  have hlen : S.length ≥ 8 ↔ S'.length ≥ 8 := lt_length_congr h h7
  simp only [kind, inqMatch_congr h c hinq, isEBD_congr h c h7.le, isPD_congr h c (by omega),
    isBDR_congr h c h7.le, hlen, byteAt_congr h h7, byteAt_congr h (Nat.lt_of_succ_lt h7)]

/-- R102: what a classifier command ends with is decided by the first n bytes of MSG. -/
theorem endingOf_congr_msg {i : Instr} (hi : i = .isebd ∨ i = .ispd ∨ i = .isbankpart ∨ i = .matchreply ∨ i = .classify)
    (h8 : 8 ≤ n) (hinq : 10 + Config.device.inqId.length ≤ n) (arg arg' : Bytes) :
    endingOf i S arg = endingOf i S' arg' := by
  obtain rfl | rfl | rfl | rfl | rfl := hi
  · simp only [endingOf, isebdEnding, isEBD_congr h _ (by omega)]
  · simp only [endingOf, ispdEnding, isPD_congr h _ (by omega)]
  · simp only [endingOf, isbankpartEnding, isPD_congr h _ (by omega)]
  · simp only [endingOf, matchreplyEnding, inqMatch_congr h _ hinq]
  · simp only [endingOf, classifyEnding, kind_congr h _ h8 hinq]

end

/-- Settles O14: the results are the ending, and the ending reads the first n bytes. -/
theorem classifierReadsOnlyTheHeader : Obligations.ClassifierReadsOnlyTheHeader := by
  intro i s s' t t' n hi h8 hinq hmsg hexec hexec'
  obtain rfl := exec_next hexec
  obtain rfl := exec_next hexec'
  rw [endingOf_congr_msg hmsg hi h8 hinq s.arg s'.arg]
  exact results_writeResults _ _ _ _

end Sys2Proof.Machine
end

section
/-! PROOFS. The shape of a message (40_classifier.md R107, O26). -/

namespace Sys2Proof.Machine

theorem shape_of_not_looks {c : Config} {S : Bytes} (he : ¬ looksEBD c S) (hp : ¬ looksPD c S) :
    shape c S = .other := by
  rw [shape, if_neg (mt (isEBD_iff c S).1 he), if_neg (mt (isPD_iff c S).1 hp)]

/-- Settles O26: the two dump preambles exclude each other, so exactly one of three cases holds. -/
theorem shapeIsDecidedByThePreamble : Obligations.ShapeIsDecidedByThePreamble := by
  intro c S
  by_cases hp : looksPD c S
  · have he := not_looksEBD_of_looksPD hp
    rw [shape_of_looksPD hp]
    exact ⟨iff_of_false nofun he, iff_of_true rfl hp, iff_of_false nofun fun hn => hn.2 hp⟩
  · by_cases he : looksEBD c S
    · rw [shape_of_looksEBD he]
      exact ⟨iff_of_true rfl he, iff_of_false nofun hp, iff_of_false nofun fun hn => hn.1 he⟩
    · rw [shape_of_not_looks he hp]
      exact ⟨iff_of_false nofun he, iff_of_false nofun hp, iff_of_true rfl ⟨he, hp⟩⟩

end Sys2Proof.Machine
end

section
/-! PROOFS. The two bit streams of the codec's laws (41_codec.md R133, R134): their bits one byte at a time, the sequences
they determine, and the set bits they count (R136). -/

namespace Sys2Proof

/-! ### The bits of a stream -/

@[simp] theorem pbit_nil (i : Nat) : pbit [] i = false := by simp [pbit]

@[simp] theorem ubit_nil (i : Nat) : ubit [] i = false := by simp [ubit]

theorem pbit_cons_of_lt (a : Byte) (P : Bytes) {i : Nat} (h : i < 7) : pbit (a :: P) i = a.getLsbD i := by
  simp [pbit, Nat.div_eq_of_lt h, Nat.mod_eq_of_lt h]

theorem ubit_cons_of_lt (u : Byte) (U : Bytes) {i : Nat} (h : i < 8) : ubit (u :: U) i = u.getLsbD i := by
  simp [ubit, Nat.div_eq_of_lt h, Nat.mod_eq_of_lt h]

@[simp] theorem pbit_cons_add (a : Byte) (P : Bytes) (i : Nat) : pbit (a :: P) (i + 7) = pbit P i := by
  simp [pbit]

@[simp] theorem ubit_cons_add (u : Byte) (U : Bytes) (i : Nat) : ubit (u :: U) (i + 8) = ubit U i := by
  simp [ubit]

/-- R133: seven stream bits to a packed byte. -/
theorem pbit_mul_add (P : Bytes) (t : Nat) {j : Nat} (hj : j < 7) : pbit P (7 * t + j) = (P.getD t 0).getLsbD j := by
  simp [pbit, Nat.mul_add_div, Nat.div_eq_of_lt hj, Nat.mod_eq_of_lt hj]

/-- R134: eight stream bits to an unpacked byte. -/
theorem ubit_mul_add (U : Bytes) (k : Nat) {j : Nat} (hj : j < 8) : ubit U (8 * k + j) = (U.getD k 0).getLsbD j := by
  simp [ubit, Nat.mul_add_div, Nat.div_eq_of_lt hj, Nat.mod_eq_of_lt hj]

/-- R134: the stream is 0 beyond the bytes of U. -/
theorem ubit_of_ge {U : Bytes} {i : Nat} (h : 8 * U.length ≤ i) : ubit U i = false := by
  have hlen : U.length ≤ i / 8 := by omega
  simp [ubit, List.getElem?_eq_none hlen]

/-- R131, R132: the mask keeps the seven stream bits. -/
theorem getLsbD_0x7F {j : Nat} (hj : j < 7) : (0x7F : Byte).getLsbD j = true := by
  interval_cases j <;> rfl

/-- R131: the stream has no bit 7 of a packed byte in it. -/
theorem pbit_map_mask (P : Bytes) (i : Nat) : pbit (P.map (· &&& 0x7F)) i = pbit P i := by
  have hget : (P.map (· &&& 0x7F)).getD (i / 7) 0 = P.getD (i / 7) 0 &&& 0x7F :=
    List.getD_map (d := 0) (f := fun b : Byte => b &&& 0x7F) ..
  rw [pbit, hget, BitVec.getLsbD_and, getLsbD_0x7F (Nat.mod_lt _ (by decide)), Bool.and_true, pbit]

theorem toNat_lt_0x80_iff (b : Byte) : b.toNat < 0x80 ↔ b.getLsbD 7 = false := by
  have hmsb := BitVec.msb_eq_false_iff_two_mul_lt (x := b)
  rw [BitVec.msb_eq_getLsbD_last] at hmsb
  rw [hmsb]
  omega

/-! ### A stream determines its sequence -/

theorem eq_of_ubit_eq {S T : Bytes} (hlen : S.length = T.length)
    (h : ∀ i < 8 * S.length, ubit S i = ubit T i) : S = T := by
  refine List.ext_getElem hlen fun k hS hT => BitVec.eq_of_getLsbD_eq fun j hj => ?_
  have hbit := h (8 * k + j) (by omega)
  simpa [ubit_mul_add _ _ hj, hS, hT] using hbit

theorem eq_of_pbit_eq {S T : Bytes} (hlen : S.length = T.length) (hS7 : ∀ b ∈ S, b.getLsbD 7 = false)
    (hT7 : ∀ b ∈ T, b.getLsbD 7 = false) (h : ∀ i < 7 * S.length, pbit S i = pbit T i) : S = T := by
  refine List.ext_getElem hlen fun t hS hT => BitVec.eq_of_getLsbD_eq fun j hj => ?_
  obtain hj7 | rfl : j < 7 ∨ j = 7 := by omega
  · have hbit := h (7 * t + j) (by omega)
    simpa [pbit_mul_add _ _ hj7, hS, hT] using hbit
  · rw [hS7 _ (List.getElem_mem hS), hT7 _ (List.getElem_mem hT)]

/-! ### Set bits (R8, R136) -/

theorem bytePopcount_eq_sum (b : Byte) : bytePopcount b = ∑ j ∈ Finset.range 8, (b.getLsbD j).toNat := rfl

@[simp] theorem popcount_cons (b : Byte) (S : Bytes) : popcount (b :: S) = bytePopcount b + popcount S := by
  simp [popcount]

theorem popcount_eq_sum_ubit (U : Bytes) : popcount U = ∑ i ∈ Finset.range (8 * U.length), (ubit U i).toNat := by
  induction U with
  | nil => rfl
  | cons u U ih =>
    have hhead : ∑ i ∈ Finset.range 8, (ubit (u :: U) i).toNat = bytePopcount u := by
      rw [bytePopcount_eq_sum]
      exact Finset.sum_congr rfl fun i hi => by rw [ubit_cons_of_lt u U (Finset.mem_range.1 hi)]
    rw [popcount_cons, ih, List.length_cons, Nat.mul_succ, Nat.add_comm _ 8, Finset.sum_range_add, hhead]
    simp only [Nat.add_comm 8, ubit_cons_add]

/-- The packed stream has every set bit but the bits 7. -/
theorem popcount_eq_sum_pbit (P : Bytes) :
    popcount P = ∑ i ∈ Finset.range (7 * P.length), (pbit P i).toNat + P.countP (·.getLsbD 7) := by
  induction P with
  | nil => rfl
  | cons a P ih =>
    have hhead : ∑ i ∈ Finset.range 7, (pbit (a :: P) i).toNat + (a.getLsbD 7).toNat = bytePopcount a := by
      rw [bytePopcount_eq_sum, Finset.sum_range_succ _ 7]
      congr 1
    have htop : (a :: P).countP (·.getLsbD 7) = P.countP (·.getLsbD 7) + (a.getLsbD 7).toNat := by
      rw [List.countP_cons]
      cases a.getLsbD 7 <;> rfl
    rw [popcount_cons, ih, htop, List.length_cons, Nat.mul_succ, Nat.add_comm _ 7, Finset.sum_range_add, ← hhead]
    simp only [Nat.add_comm 7, pbit_cons_add]
    omega

theorem popcount_eq_sum_pbit_of_clear {P : Bytes} (h : ∀ b ∈ P, b.getLsbD 7 = false) :
    popcount P = ∑ i ∈ Finset.range (7 * P.length), (pbit P i).toNat := by
  have htop : P.countP (·.getLsbD 7) = 0 := List.countP_eq_zero.2 fun b hb => Bool.not_eq_true _ ▸ h b hb
  rw [popcount_eq_sum_pbit, htop, Nat.add_zero]

end Sys2Proof
end

section
/-! PROOFS. The closed forms of `unpack7` and `pack7` (41_codec.md R133, R134; O18, O19), by the loops: each output bit is
the next bit of the input's stream. -/

namespace Sys2Proof.Machine

/-! ### unpack7 -/

/-- R133 from any point of the loop: `r` bits of the stream are used up. -/
theorem ubit_unpack7From (r : Nat) (P : Bytes) (hr : r < 7) (i : Nat) (hi : i < 8 * (unpack7From r P).length) :
    ubit (unpack7From r P) i = pbit P (r + i) := by
  induction P using List.twoStepInduction generalizing r i with
  | nil => simp at hi
  | singleton a => simp at hi
  | cons_cons a b rest ihWrap ihNext =>
    obtain ⟨tail, htail⟩ : ∃ tail, unpack7From r (a :: b :: rest) = unpackByte r a b :: tail := ⟨_, rfl⟩
    obtain hi8 | hi8 := Nat.lt_or_ge i 8
    · rw [htail, ubit_cons_of_lt _ _ hi8, getLsbD_unpackByte r hr a b i hi8]
      split
      · rw [pbit_cons_of_lt _ _ (by omega)]
      · rw [show r + i = i - (7 - r) + 7 by omega, pbit_cons_add, pbit_cons_of_lt _ _ (by omega)]
    · obtain ⟨i, rfl⟩ := Nat.exists_eq_add_of_le' hi8
      by_cases h6 : r = 6
      · subst h6
        rw [unpack7From_wrap] at hi ⊢
        rw [ubit_cons_add, ihWrap 0 (by omega) i (by simp at hi; omega), show 6 + (i + 8) = 0 + i + 7 + 7 by omega,
          pbit_cons_add, pbit_cons_add]
      · rw [unpack7From_step r a b rest (by omega)] at hi ⊢
        rw [ubit_cons_add, ihNext b (r + 1) (by omega) i (by simp at hi; omega),
          show r + (i + 8) = r + 1 + i + 7 by omega, pbit_cons_add]

/-- R133: the bits of an unpacking are the stream of its input, as far as whole bytes go. -/
theorem ubit_unpack7 (P : Bytes) {i : Nat} (hi : i < 8 * (unpack7 P).length) : ubit (unpack7 P) i = pbit P i := by
  rw [unpack7, ubit_unpack7From 0 P (by decide) i hi, Nat.zero_add]

/-- Settles O18: bit `j` of byte `k` is bit `8k+j` of the unpacked stream. -/
theorem unpack7ClosedForm : Obligations.Unpack7ClosedForm := by
  intro P
  refine ⟨length_unpack7 P, fun k hk j hj => ?_⟩
  rw [← ubit_mul_add _ k hj, ubit_unpack7 P]
  rw [length_unpack7]
  omega

/-! ### pack7 -/

/-- What is left to pack at a point of the loop of R132: the `7-k` bits of the carry, then the bits of `U`. -/
def carryStream (k : Nat) (carry : Byte) (U : Bytes) (i : Nat) : Bool :=
  if i < 7 - k then carry.getLsbD i else ubit U (i - (7 - k))

theorem carryStream_seven (carry : Byte) (U : Bytes) (i : Nat) : carryStream 7 carry U i = ubit U i := rfl

/-- The carry holds only its `7-k` bits. -/
def carryFits (k : Nat) (carry : Byte) : Prop := ∀ j, 7 - k ≤ j → carry.getLsbD j = false

theorem carryFits_zero (k : Nat) : carryFits k 0 := fun _ _ => BitVec.getLsbD_zero

/-- R132: after a byte of the input, its top `8-k` bits are the carry. -/
theorem carryFits_shiftRight (u : Byte) {k : Nat} (hk : 1 ≤ k) : carryFits (k - 1) (u >>> k) := by
  intro j hj
  rw [BitVec.getLsbD_ushiftRight]
  exact BitVec.getLsbD_of_ge _ _ (by omega)

/-- R132: the byte emitted for `u` holds the first 7 bits of what is left to pack. -/
theorem getLsbD_packedByte {k : Nat} {carry : Byte} (hfits : carryFits k carry) (u : Byte) (rest : Bytes) {i : Nat}
    (hi : i < 7) :
    ((carry ||| (u <<< (7 - k))) &&& 0x7F).getLsbD i = carryStream k carry (u :: rest) i := by
  rw [BitVec.getLsbD_and, getLsbD_0x7F hi, Bool.and_true, BitVec.getLsbD_or, BitVec.getLsbD_shiftLeft, carryStream]
  split
  next h => simp [h]
  next h =>
    have hi8 : i < 8 := by omega
    rw [hfits i (by omega), ubit_cons_of_lt _ _ (by omega)]
    simp [h, hi8]

/-- R132: what is left to pack after that byte. -/
theorem carryStream_cons_add (k : Nat) (hk : 1 ≤ k) (hk7 : k ≤ 7) (carry u : Byte) (rest : Bytes) (i : Nat) :
    carryStream k carry (u :: rest) (i + 7) = carryStream (k - 1) (u >>> k) rest i := by
  rw [carryStream, if_neg (by omega), carryStream]
  split
  · rw [ubit_cons_of_lt _ _ (by omega), BitVec.getLsbD_ushiftRight]
    congr 1
    omega
  · rw [show i + 7 - (7 - k) = i - (7 - (k - 1)) + 8 by omega, ubit_cons_add]

/-- R134 from any point of the loop: the packed bits are what is left to pack. -/
theorem pbit_pack7From (k : Nat) (carry : Byte) (U : Bytes) (hk : 1 ≤ k) (hk7 : k ≤ 7) (hfits : carryFits k carry)
    (i : Nat) : pbit (pack7From k carry U) i = carryStream k carry U i := by
  induction U generalizing k carry i with
  | nil =>
    rw [pack7From_nil, carryStream, ubit_nil]
    obtain hi | hi := Nat.lt_or_ge i 7
    · rw [pbit_cons_of_lt _ _ hi]
      split
      · rfl
      · exact hfits i (by omega)
    · obtain ⟨i, rfl⟩ := Nat.exists_eq_add_of_le' hi
      rw [pbit_cons_add, pbit_nil, if_neg (by omega)]
  | cons u rest ih =>
    obtain hi | hi := Nat.lt_or_ge i 7
    · rw [← getLsbD_packedByte hfits u rest hi]
      exact pbit_cons_of_lt _ _ hi
    · obtain ⟨i, rfl⟩ := Nat.exists_eq_add_of_le' hi
      rw [carryStream_cons_add k hk hk7]
      by_cases h1 : k = 1
      · subst h1
        rw [pack7From_wrap, pbit_cons_add, carryStream]
        split
        next h => exact pbit_cons_of_lt _ _ h
        next h =>
          obtain ⟨i, rfl⟩ := Nat.exists_eq_add_of_le' (Nat.le_of_not_lt h)
          rw [pbit_cons_add, ih 7 0 (by decide) le_rfl (carryFits_zero 7), carryStream_seven]
          rfl
      · rw [pack7From_step k carry u rest (by omega), pbit_cons_add]
        exact ih (k - 1) _ (by omega) (by omega) (carryFits_shiftRight u hk) i

/-- R137 from any point of the loop: every packed byte has bit 7 clear. -/
theorem bit7_pack7From (k : Nat) (carry : Byte) (U : Bytes) (hk : 1 ≤ k) (hfits : carryFits k carry) :
    ∀ b ∈ pack7From k carry U, b.getLsbD 7 = false := by
  induction U generalizing k carry with
  | nil => simpa using hfits 7 (by omega)
  | cons u rest ih =>
    have hbyte : ((carry ||| (u <<< (7 - k))) &&& 0x7F).getLsbD 7 = false := by
      rw [BitVec.getLsbD_and]
      exact Bool.and_false _
    have hcarry := carryFits_shiftRight u hk
    by_cases h1 : k = 1
    · subst h1
      rw [pack7From_wrap, List.forall_mem_cons, List.forall_mem_cons]
      exact ⟨hbyte, hcarry 7 (by decide), ih 7 0 (by decide) (carryFits_zero 7)⟩
    · rw [pack7From_step k carry u rest (by omega), List.forall_mem_cons]
      exact ⟨hbyte, ih (k - 1) _ (by omega) hcarry⟩

/-- R134: the bits of a packing are the stream of its input, to any length. -/
theorem pbit_pack7 (U : Bytes) (i : Nat) : pbit (pack7 U) i = ubit U i :=
  pbit_pack7From 7 0 U (by decide) le_rfl (carryFits_zero 7) i

/-- R137: packed bytes are 7-bit bytes. -/
theorem bit7_pack7 (U : Bytes) : ∀ b ∈ pack7 U, b.getLsbD 7 = false :=
  bit7_pack7From 7 0 U (by decide) (carryFits_zero 7)

/-- R134: bit `j < 7` of packed byte `t`. -/
theorem getLsbD_pack7 (U : Bytes) (t : Nat) {j : Nat} (hj : j < 7) :
    ((pack7 U).getD t 0).getLsbD j = ubit U (7 * t + j) := by
  rw [← pbit_mul_add _ t hj, pbit_pack7]

/-- Settles O19: bits 0 to 6 are the stream, and bit 7 is clear in every byte. -/
theorem pack7ClosedForm : Obligations.Pack7ClosedForm := by
  intro U
  refine ⟨length_pack7 U, fun t ht => ⟨fun j hj => getLsbD_pack7 U t hj, ?_⟩⟩
  rw [List.getD_eq_getElem _ _ ht]
  exact bit7_pack7 U _ (List.getElem_mem ht)

/-- R137: the last packed byte holds the `L mod 7` bits that are left of the stream. -/
theorem getLsbD_last_pack7 (U : Bytes) {j : Nat} (hj : U.length % 7 ≤ j) (hj7 : j < 7) :
    ((pack7 U).getD ((pack7 U).length - 1) 0).getLsbD j = false := by
  rw [getLsbD_pack7 U _ hj7, length_pack7]
  exact ubit_of_ge (by omega)

end Sys2Proof.Machine
end

section
/-! PROOFS. The codec's laws from its closed forms (41_codec.md R135 to R139; O20, O22 to O25): two sequences of one length
are equal when their streams are. -/

namespace Sys2Proof.Machine

/-! ### Round trips (R135, R138) -/

/-- Settles O20: both sides have the stream and the length of U. -/
theorem unpackOfPackIsIdentity : Obligations.UnpackOfPackIsIdentity := by
  intro U
  refine eq_of_ubit_eq ?_ fun i hi => ?_
  · rw [length_unpack7, length_pack7]
    omega
  · rw [ubit_unpack7 _ hi, pbit_pack7]

/-- R134, R139: a length `n` with a remainder is that of the packing of `7n div 8` bytes. -/
theorem length_pack7_of_strict {U : Bytes} {n : Nat} (hn : n % 8 ≠ 0) (hU : U.length = 7 * n / 8) :
    (pack7 U).length = n := by
  have hdiv : 7 * n / 8 = 7 * (n / 8) + (n % 8 - 1) := by omega
  rw [length_pack7, hU, hdiv]
  omega

/-- R138: what a packed sequence is like. -/
def canonical (P : Bytes) : Prop :=
  P.length % 8 ≠ 0 ∧ (∀ b ∈ P, b.toNat < 0x80) ∧
    ∀ j, P.length % 8 - 1 ≤ j → j ≤ 6 → (P.getD (P.length - 1) 0).getLsbD j = false

theorem canonical_pack7 (U : Bytes) : canonical (pack7 U) := by
  have hlen := length_pack7 U
  refine ⟨by omega, fun b hb => (toNat_lt_0x80_iff b).2 (bit7_pack7 U b hb), fun j hj hj6 => ?_⟩
  exact getLsbD_last_pack7 U (by omega) (by omega)

/-- R138: the bits of a canonical sequence beyond the whole bytes it unpacks to are 0. -/
theorem pbit_of_canonical {P : Bytes} (hP : canonical P) {i : Nat} (hi : 8 * (7 * P.length / 8) ≤ i)
    (hi7 : i < 7 * P.length) : pbit P i = false := by
  obtain ⟨hlen, -, hlast⟩ := hP
  have hdiv : i = 7 * (P.length - 1) + i % 7 := by omega
  rw [hdiv, pbit_mul_add _ _ (Nat.mod_lt _ (by decide))]
  exact hlast _ (by omega) (by omega)

theorem pack7_unpack7_of_canonical {P : Bytes} (hP : canonical P) : pack7 (unpack7 P) = P := by
  have ⟨hlen, hbytes, _⟩ := hP
  have hlen' : (pack7 (unpack7 P)).length = P.length := length_pack7_of_strict hlen (length_unpack7 P)
  refine eq_of_pbit_eq hlen' (bit7_pack7 _) (fun b hb => (toNat_lt_0x80_iff b).1 (hbytes b hb)) fun i hi => ?_
  rw [pbit_pack7]
  obtain hin | hout := Nat.lt_or_ge i (8 * (unpack7 P).length)
  · exact ubit_unpack7 P hin
  · rw [ubit_of_ge hout]
    exact (pbit_of_canonical hP (length_unpack7 P ▸ hout) (hlen' ▸ hi)).symm

/-- Settles O24: a packing is canonical, and a canonical sequence has the stream of the packing of its unpacking. -/
theorem packOfUnpackIsIdentityExactlyOnCanonical : Obligations.PackOfUnpackIsIdentityExactlyOnCanonical :=
  fun P => ⟨fun h => h ▸ canonical_pack7 (unpack7 P), pack7_unpack7_of_canonical⟩

/-! ### Set bits, the last byte and the lengths (R136, R137, R139) -/

theorem popcount_pack7 (U : Bytes) : popcount (pack7 U) = popcount U := by
  rw [popcount_eq_sum_pbit_of_clear (bit7_pack7 U), popcount_eq_sum_ubit]
  simp only [pbit_pack7]
  have hlen : 8 * U.length ≤ 7 * (pack7 U).length := by
    rw [length_pack7]
    omega
  refine (Finset.sum_subset (Finset.range_mono hlen) fun i _ hi => ?_).symm
  rw [ubit_of_ge (by simpa using hi)]
  rfl

theorem popcount_unpack7_le (P : Bytes) : popcount (unpack7 P) ≤ popcount P := by
  have hlen : 8 * (unpack7 P).length ≤ 7 * P.length := by
    rw [length_unpack7]
    omega
  calc popcount (unpack7 P) = ∑ i ∈ Finset.range (8 * (unpack7 P).length), (pbit P i).toNat := by
        rw [popcount_eq_sum_ubit]
        exact Finset.sum_congr rfl fun i hi => by rw [ubit_unpack7 P (Finset.mem_range.1 hi)]
    _ ≤ ∑ i ∈ Finset.range (7 * P.length), (pbit P i).toNat :=
      Finset.sum_le_sum_of_subset (Finset.range_mono hlen)
    _ ≤ popcount P := by rw [popcount_eq_sum_pbit]; exact Nat.le_add_right ..

/-- Settles O22: the packed stream is the whole input stream and zeros, the unpacked one a part of its input's. -/
theorem popcountKeptByPack7 : Obligations.PopcountKeptByPack7 := ⟨popcount_pack7, popcount_unpack7_le⟩

/-- Settles O23: bits `L mod 7` and up of the last byte lie beyond the stream. -/
theorem flushByteHoldsOnlyTheCarry : Obligations.FlushByteHoldsOnlyTheCarry := by
  intro U
  have hne : pack7 U ≠ [] := List.ne_nil_of_length_pos (by simp)
  refine ⟨(pack7 U).dropLast, (pack7 U).getLast hne, (List.dropLast_append_getLast hne).symm, ?_⟩
  refine Nat.lt_pow_two_of_testBit _ fun j hj => ?_
  change ((pack7 U).getLast hne).getLsbD j = false
  obtain hj7 | rfl | hj8 := lt_trichotomy j 7
  · simpa [List.getLast_eq_getElem] using getLsbD_last_pack7 U hj hj7
  · exact bit7_pack7 U _ (List.getLast_mem hne)
  · exact BitVec.getLsbD_of_ge _ _ hj8

theorem strictLenOK_iff (n : Nat) : strictLenOK n = true ↔ n % 8 ≠ 0 := by
  simp [strictLenOK]

/-- R139: the lengths of packings are those with a remainder. -/
theorem exists_length_pack7_iff (n : Nat) : (∃ U : Bytes, (pack7 U).length = n) ↔ n % 8 ≠ 0 := by
  constructor
  · rintro ⟨U, rfl⟩
    obtain ⟨hlen, -⟩ := canonical_pack7 U
    exact hlen
  · intro hn
    exact ⟨List.replicate (7 * n / 8) 0, length_pack7_of_strict hn List.length_replicate⟩

/-- Settles O25: both are the remainder rule. -/
theorem strictLengthsAreThePackedLengths : Obligations.StrictLengthsAreThePackedLengths :=
  fun n => ⟨strictLenOK_iff n, (strictLenOK_iff n).trans (exists_length_pack7_iff n).symm⟩

end Sys2Proof.Machine
end

section
/-! PROOFS. The codec commands (41_codec.md R140 to R142; O15 to O17, O21): each ends with OUT alone, or UNPACK7S with
CodecPrecondition. -/

namespace Sys2Proof.Machine

/-- R200: a command that ends with OUT alone completes with it, the other results cleared. -/
theorem exec_of_out {i : Instr} {s : State} {o : Bytes}
    (h : endingOf i s.msg s.arg = .ok { out := o, res := 0, fp := 0 }) :
    exec i s = .next { s with out := some o, res := some 0, fp := some 0, status := some 0 } := by
  rw [exec_eq_endingOf, h]
  rfl

theorem exec_pack7 (s : State) :
    exec .pack7 s = .next { s with out := some (pack7 s.msg), res := some 0, fp := some 0, status := some 0 } :=
  exec_of_out rfl

theorem exec_unpack7 (s : State) :
    exec .unpack7 s = .next { s with out := some (unpack7 s.msg), res := some 0, fp := some 0, status := some 0 } :=
  exec_of_out rfl

/-- R142: the length precondition met. -/
theorem exec_unpack7s_of_strict {s : State} (h : s.msg.length % 8 ≠ 0) :
    exec .unpack7s s = .next { s with out := some (unpack7 s.msg), res := some 0, fp := some 0, status := some 0 } :=
  exec_of_out (if_pos ((strictLenOK_iff _).2 h))

/-- R142: the length precondition not met. -/
theorem exec_unpack7s_of_not_strict {s : State} (h : s.msg.length % 8 = 0) :
    exec .unpack7s s = .next { s with out := some [], res := some 0, fp := some 0, status := some 3 } := by
  have hend : endingOf .unpack7s s.msg s.arg = .error .codecPrecondition :=
    if_neg fun hstrict => (strictLenOK_iff _).1 hstrict h
  rw [exec_eq_endingOf, hend]
  rfl

/-- Settles O15: OUT is the packing of MSG, whose length and 7-bit bytes are R134's and R137's. -/
theorem pack7WritesThePacking : Obligations.Pack7WritesThePacking :=
  fun s => ⟨exec_pack7 s, length_pack7 s.msg, fun b hb => (toNat_lt_0x80_iff b).2 (bit7_pack7 s.msg b hb)⟩

/-- R131: the stream of the input has no bit 7 in it, so neither has the unpacking. -/
theorem unpack7_map_mask (P : Bytes) : unpack7 (P.map (· &&& 0x7F)) = unpack7 P := by
  have hlen : (unpack7 (P.map (· &&& 0x7F))).length = (unpack7 P).length := by
    rw [length_unpack7, length_unpack7, List.length_map]
  refine eq_of_ubit_eq hlen fun i hi => ?_
  rw [ubit_unpack7 _ hi, ubit_unpack7 _ (hlen ▸ hi), pbit_map_mask]

/-- Settles O16: OUT is the unpacking of MSG, whose length and stream are R133's. -/
theorem unpack7WritesTheUnpacking : Obligations.Unpack7WritesTheUnpacking :=
  fun s => ⟨exec_unpack7 s, length_unpack7 s.msg, unpack7_map_mask s.msg⟩

/-- Settles O17, by the two sides of the length precondition. -/
theorem unpack7sChecksTheLength : Obligations.Unpack7sChecksTheLength :=
  fun _ => ⟨exec_unpack7s_of_strict, exec_unpack7s_of_not_strict⟩

/-- Settles O21: OUT is the packing of MSG, its length meets the precondition, and its unpacking is MSG. -/
theorem unpackCommandsUndoPack7 : Obligations.UnpackCommandsUndoPack7 := by
  intro s t o hexec ho
  obtain rfl := Host.Outcome.next.inj ((exec_pack7 s).symm.trans hexec)
  obtain rfl := Option.some.inj ho
  obtain ⟨hlen, -⟩ := canonical_pack7 s.msg
  rw [exec_unpack7, exec_unpack7s_of_strict hlen, unpackOfPackIsIdentity s.msg]
  exact ⟨rfl, rfl⟩

end Sys2Proof.Machine
end

section
/-! PROOFS. The metadata operands in the terms of Safety.lean (42_metadata.md R160 to R168): the name field, its
replacement, the name built from ARG and the renamed message. -/

namespace Sys2Proof.Machine

theorem slice_eq_take_drop (S : Bytes) (a b : Nat) : slice S a b = (S.drop a).take (b - a) :=
  List.drop_take ..

/-- R162: the name field is the 16 bytes from byte 2. -/
theorem nameField_eq (U : Bytes) : nameField U = (U.drop 2).take 16 :=
  slice_eq_take_drop U 2 18

/-- R166: for a name of 16 bytes, what follows the name field starts at byte 18. -/
theorem withName_eq_replaceName (U : Bytes) {N : Bytes} (hN : N.length = 16) : withName U N = replaceName U N := by
  rw [withName, overwrite, hN]
  rfl

/-- R165: padding with 16 spaces and cutting to 16 adds the spaces that are missing. -/
theorem padName_eq_paddedName (A : Bytes) : padName A = paddedName A := by
  have hrep : (rep padByte nameLen).take (16 - A.length) = List.replicate (16 - A.length) 0x20 := by
    rw [rep, List.take_replicate, Nat.min_eq_left (show 16 - A.length ≤ nameLen from Nat.sub_le ..)]
    rfl
  have hcut : 16 - (A.take 16).length = 16 - A.length := by
    rw [List.length_take]
    omega
  rw [padName, nameLen, List.take_append, List.take_take, Nat.min_self, hcut]
  exact congrArg (A.take 16 ++ ·) hrep

@[simp] theorem length_paddedName (A : Bytes) : (paddedName A).length = 16 :=
  padName_eq_paddedName A ▸ length_padName A

/-- R168: the hashed data is PatchData with 16 zero bytes for its name. -/
theorem fpInput_eq (U : Bytes) : fpInput U = replaceName U (List.replicate 16 0x00) :=
  withName_eq_replaceName U List.length_replicate

/-- R41: the last byte of a message that has one. -/
theorem singleton_byteAt_last {S : Bytes} (hS : S ≠ []) : [byteAt S (S.length - 1)] = S.drop (S.length - 1) := by
  have hlast : S.length - 1 < S.length := Nat.sub_one_lt (mt List.length_eq_zero_iff.1 hS)
  rw [byteAt_of_lt S _ hlast, List.drop_length_sub_one hS, List.getLast_eq_getElem]

/-- R166: header and last byte of the message around the re-packed data. -/
theorem renamed_eq {S : Bytes} (hS : S ≠ []) (h : Nat) (U A : Bytes) :
    renamed h S U A = S.take h ++ pack7 (replaceName U (paddedName A)) ++ S.drop (S.length - 1) := by
  rw [renamed, padName_eq_paddedName, withName_eq_replaceName U (length_paddedName A), singleton_byteAt_last hS]
  rfl

/-! ### What a replaced name leaves and shows -/

section
variable {U N : Bytes} (hU : 18 ≤ U.length) (hN : N.length = 16)
include hU

theorem length_take_two : (U.take 2).length = 2 :=
  List.length_take_of_le (by omega)

theorem take_replaceName : (replaceName U N).take 2 = U.take 2 := by
  rw [replaceName, List.append_assoc, List.take_left' (length_take_two hU)]

include hN

theorem length_replaceName : (replaceName U N).length = U.length := by
  rw [replaceName, List.length_append, List.length_append, length_take_two hU, List.length_drop, hN]
  omega

theorem drop_replaceName : (replaceName U N).drop 18 = U.drop 18 := by
  have hlen : (U.take 2 ++ N).length = 18 := by
    rw [List.length_append, length_take_two hU, hN]
  rw [replaceName, List.drop_left' hlen]

theorem name_replaceName : ((replaceName U N).drop 2).take 16 = N := by
  rw [replaceName, List.append_assoc, List.drop_left' (length_take_two hU), List.take_left' hN]

end

/-- Data that differs only in its name is the same once the name is replaced. -/
theorem replaceName_congr {U U' : Bytes} (htake : U.take 2 = U'.take 2) (hdrop : U.drop 18 = U'.drop 18) (N : Bytes) :
    replaceName U N = replaceName U' N := by
  rw [replaceName, htake, hdrop, replaceName]

/-! ### The lengths of a dump -/

/-- R133, R161: the length of a dump's PatchData. -/
theorem length_dumpData (h : Nat) (S : Bytes) : (dumpData h S).length = 7 * (S.length - 1 - h) / 8 :=
  length_patchData h S

/-- R160: a dump with a name field reaches past its header. -/
theorem header_le_of_named {h : Nat} {S : Bytes} (hU : 18 ≤ (dumpData h S).length) : h ≤ S.length := by
  rw [length_dumpData] at hU
  omega

theorem ne_nil_of_hasHeader {c : Config} {S : Bytes} {h : Nat} (hh : hasHeader c S h) : S ≠ [] := by
  rintro rfl
  obtain ⟨⟨hlen, -⟩, -⟩ | ⟨⟨hlen, -⟩, -⟩ := hh
  · cases hlen
  · cases hlen

end Sys2Proof.Machine
end

section
/-! PROOFS. How the metadata commands end on each kind of message (42_metadata.md R163 to R170; O27 to O30). -/

namespace Sys2Proof.Machine

/-! ### The endings -/

section
variable {c : Config} {S : Bytes}

theorem namedDump_of_not_looks (he : ¬ looksEBD c S) (hp : ¬ looksPD c S) :
    namedDump c S = .error .unsupportedShape := by
  rw [namedDump, shape_of_not_looks he hp]
  rfl

theorem namedDump_of_short {h : Nat} (hh : hasHeader c S h) (hU : (dumpData h S).length < 18) :
    namedDump c S = .error .malformedMessage := by
  rw [namedDump_of_hasHeader hh, if_pos hU]

theorem namedDump_of_named {h : Nat} (hh : hasHeader c S h) (hU : 18 ≤ (dumpData h S).length) :
    namedDump c S = .ok (h, dumpData h S) := by
  rw [namedDump_of_hasHeader hh, if_neg hU.not_gt]

theorem getnameEnding_of_error {x : ErrorStatus} (hd : namedDump c S = .error x) : getnameEnding c S = .error x := by
  simp only [getnameEnding, hd]

theorem getnameEnding_of_ok {h : Nat} {U : Bytes} (hd : namedDump c S = .ok (h, U)) :
    getnameEnding c S = .ok { out := nameField U, res := 0, fp := 0 } := by
  simp only [getnameEnding, hd]

theorem renameEnding_of_error {x : ErrorStatus} (hd : namedDump c S = .error x) (A : Bytes) :
    renameEnding c S A = .error x := by
  simp only [renameEnding, hd]

theorem renameEnding_of_ok {h : Nat} {U : Bytes} (hd : namedDump c S = .ok (h, U)) (A : Bytes) :
    renameEnding c S A = .ok { out := renamed h S U A, res := 0, fp := 0 } := by
  simp only [renameEnding, hd]

/-- R170: the fallback to the raw message. -/
theorem fprintEnding_of_other (hs : shape c S = .other) :
    fprintEnding c S = .ok { out := [], res := 0, fp := c.fpHash S } := by
  simp only [fprintEnding, hs]

theorem fprintEnding_of_short {h : Nat} (hh : hasHeader c S h) (hU : (dumpData h S).length < 18) :
    fprintEnding c S = .error .malformedMessage := by
  have hd := namedDump_of_short hh hU
  obtain ⟨hp, -⟩ | ⟨he, -⟩ := hh
  · simp only [fprintEnding, shape_of_looksPD hp, hd]
  · simp only [fprintEnding, shape_of_looksEBD he, hd]

theorem fprintEnding_of_named {h : Nat} (hh : hasHeader c S h) (hU : 18 ≤ (dumpData h S).length) :
    fprintEnding c S = .ok { out := [], res := 0, fp := c.fpHash (fpInput (dumpData h S)) } := by
  have hd := namedDump_of_named hh hU
  obtain ⟨hp, -⟩ | ⟨he, -⟩ := hh
  · simp only [fprintEnding, shape_of_looksPD hp, hd]
  · simp only [fprintEnding, shape_of_looksEBD he, hd]

theorem getnumEnding_of_looksEBD (he : looksEBD c S) : getnumEnding c S = .ok { out := [], res := 0, fp := 0 } := by
  simp only [getnumEnding, shape_of_looksEBD he]

theorem getnumEnding_of_looksPD (hp : looksPD c S) :
    getnumEnding c S =
      if S.length < 8 then .error .malformedMessage
      else .ok { out := [], res := resSlot (byteAt S 6) (byteAt S 7), fp := 0 } := by
  simp only [getnumEnding, shape_of_looksPD hp]

theorem getnumEnding_of_other (hs : shape c S = .other) : getnumEnding c S = .error .unsupportedShape := by
  simp only [getnumEnding, hs]

end

/-! ### The commands on the machine -/

section
variable {s : State}

/-- R201: a command that ends with an error completes with its status and cleared results. -/
theorem exec_of_error {i : Instr} {x : ErrorStatus} {st : Byte} (h : endingOf i s.msg s.arg = .error x)
    (hst : x.code = st) :
    exec i s = .next { s with out := some [], res := some 0, fp := some 0, status := some st } := by
  rw [exec_eq_endingOf, h, ← hst]
  rfl

/-- R200: a command that ends with FP alone completes with it, the other results cleared. -/
theorem exec_of_fp {i : Instr} {f : BitVec Config.device.fpBits}
    (h : endingOf i s.msg s.arg = .ok { out := [], res := 0, fp := f }) :
    exec i s = .next { s with out := some [], res := some 0, fp := some f, status := some 0 } := by
  rw [exec_eq_endingOf, h]
  rfl

variable {h : Nat} (hh : hasHeader Config.device s.msg h) (hU : 18 ≤ (dumpData h s.msg).length)
include hh hU

theorem exec_getname_of_named :
    exec .getname s = .next { s with
      out := some (((dumpData h s.msg).drop 2).take 16), res := some 0, fp := some 0, status := some 0 } :=
  nameField_eq (dumpData h s.msg) ▸ exec_of_out (getnameEnding_of_ok (namedDump_of_named hh hU))

theorem exec_rename_of_named :
    exec .rename s = .next { s with
      out := some (renamed h s.msg (dumpData h s.msg) s.arg), res := some 0, fp := some 0, status := some 0 } :=
  exec_of_out (renameEnding_of_ok (namedDump_of_named hh hU) s.arg)

theorem exec_fprint_of_named :
    exec .fprint s = .next { s with
      out := some [], res := some 0, status := some 0,
      fp := some (Config.device.fpHash (replaceName (dumpData h s.msg) (List.replicate 16 0x00))) } :=
  fpInput_eq (dumpData h s.msg) ▸ exec_of_fp (fprintEnding_of_named hh hU)

end

/-- Settles O27: `namedDump` answers the two errors or the data whose name field is OUT. -/
theorem getnameGivesTheNameField : Obligations.GetnameGivesTheNameField := by
  intro s
  refine ⟨fun he hp => ?_, fun h hh => ⟨fun hU => ?_, exec_getname_of_named hh⟩⟩
  · exact exec_of_error (getnameEnding_of_error (namedDump_of_not_looks he hp)) rfl
  · exact exec_of_error (getnameEnding_of_error (namedDump_of_short hh hU)) rfl

/-- Settles O28, by the shape of MSG and, for a program dump, its length. -/
theorem getnumGivesTheSlot : Obligations.GetnumGivesTheSlot := by
  intro s
  refine ⟨fun he => ?_, fun hp hlen => ?_, fun hp hlen => ?_, fun he hp => ?_⟩
  · exact exec_of_out (getnumEnding_of_looksEBD he)
  · exact exec_of_classified ((getnumEnding_of_looksPD hp).trans (if_neg hlen.not_gt))
  · exact exec_of_error ((getnumEnding_of_looksPD hp).trans (if_pos hlen)) rfl
  · exact exec_of_error (getnumEnding_of_other (shape_of_not_looks he hp)) rfl

/-- Settles O29: `namedDump` answers the two errors or the data that is re-packed with the name of ARG. -/
theorem renameReplacesTheNameField : Obligations.RenameReplacesTheNameField := by
  intro s
  refine ⟨fun he hp => ?_, fun h hh => ⟨fun hU => ?_, fun hU => ?_⟩⟩
  · exact exec_of_error (renameEnding_of_error (namedDump_of_not_looks he hp) s.arg) rfl
  · exact exec_of_error (renameEnding_of_error (namedDump_of_short hh hU) s.arg) rfl
  · rw [exec_rename_of_named hh hU, renamed_eq (ne_nil_of_hasHeader hh)]

/-- Settles O30: shape OTHER falls back to MSG itself, and a dump is hashed with its name zeroed. -/
theorem fprintHashesTheDataWithoutItsName : Obligations.FprintHashesTheDataWithoutItsName := by
  intro s
  refine ⟨fun he hp => ?_, fun h hh => ⟨fun hU => ?_, exec_fprint_of_named hh⟩⟩
  · exact exec_of_fp (fprintEnding_of_other (shape_of_not_looks he hp))
  · exact exec_of_error (fprintEnding_of_short hh hU) rfl

end Sys2Proof.Machine
end

section
/-! PROOFS. The renamed message (42_metadata.md R167, R171; O31 to O35): its header is the old one, so its shape and number
are, and its data block is the packing of the old data with the new name. -/

namespace Sys2Proof.Machine

/-! ### What is decided by the header -/

section
variable {S S' : Bytes} {n : Nat} (hpre : S.take n = S'.take n) (c : Config)
include hpre

theorem shape_congr (hn : 7 ≤ n) : shape c S = shape c S' := by
  rw [shape, shape, isEBD_congr hpre c hn, isPD_congr hpre c (Nat.le_of_succ_le hn)]

theorem hasHeader_congr (hn : 7 ≤ n) (h : Nat) : hasHeader c S h ↔ hasHeader c S' h := by
  simp only [hasHeader, ← isEBD_iff, ← isPD_iff, isEBD_congr hpre c hn, isPD_congr hpre c (Nat.le_of_succ_le hn)]

end

theorem seven_le_of_hasHeader {c : Config} {S : Bytes} {h : Nat} (hh : hasHeader c S h) : 7 ≤ h := by
  obtain ⟨-, rfl⟩ | ⟨-, rfl⟩ := hh
  · decide
  · decide

/-- R164: GETNUM reads nothing past the header of a dump. -/
theorem getnumEnding_congr {c : Config} {S S' : Bytes} {h : Nat} (hh : hasHeader c S h) (hpre : S.take h = S'.take h) :
    getnumEnding c S = getnumEnding c S' := by
  have hh' : hasHeader c S' h := (hasHeader_congr hpre c (seven_le_of_hasHeader hh) h).1 hh
  obtain ⟨hp, rfl⟩ | ⟨he, rfl⟩ := hh
  · obtain ⟨hp', -⟩ | ⟨-, h78⟩ := hh'
    · have hlen : S.length < 8 ↔ S'.length < 8 := by
        have := lt_length_congr hpre (k := 7) (by decide)
        omega
      simp only [getnumEnding_of_looksPD hp, getnumEnding_of_looksPD hp', hlen,
        byteAt_congr hpre (i := 6) (by decide), byteAt_congr hpre (i := 7) (by decide)]
    · cases h78
  · obtain ⟨-, h78⟩ | ⟨he', -⟩ := hh'
    · cases h78
    · rw [getnumEnding_of_looksEBD he, getnumEnding_of_looksEBD he']

/-- R164: a dump that reaches past its header has a number. -/
theorem getnumEnding_of_hasHeader {c : Config} {S : Bytes} {h : Nat} (hh : hasHeader c S h) (hlen : h ≤ S.length) :
    ∃ r, getnumEnding c S = .ok { out := [], res := r, fp := 0 } := by
  obtain ⟨hp, rfl⟩ | ⟨he, -⟩ := hh
  · exact ⟨_, (getnumEnding_of_looksPD hp).trans (if_neg hlen.not_gt)⟩
  · exact ⟨0, getnumEnding_of_looksEBD he⟩

/-! ### The parts of the renamed message -/

section
variable {h : Nat} {S A : Bytes}

theorem length_header (hlen : h ≤ S.length) : (slice S 0 h).length = h := by
  rw [length_slice, Nat.min_eq_left hlen, Nat.sub_zero]

theorem take_renamed (U : Bytes) (hlen : h ≤ S.length) : (renamed h S U A).take h = S.take h := by
  rw [renamed, List.append_assoc, List.take_left' (length_header hlen)]
  rfl

/-- R160, R166: between header and last byte stands the packing of the new data, which unpacks to it (R135). -/
theorem dumpData_renamed (U : Bytes) (hlen : h ≤ S.length) :
    dumpData h (renamed h S U A) = replaceName U (paddedName A) := by
  rw [dumpData, ← List.dropLast_eq_take, renamed, List.dropLast_concat, List.drop_left' (length_header hlen),
    padName_eq_paddedName, withName_eq_replaceName U (length_paddedName A)]
  exact unpackOfPackIsIdentity _

theorem length_renamed (hU : 18 ≤ (dumpData h S).length) :
    (renamed h S (dumpData h S) A).length = S.length + (if (S.length - 1 - h) % 8 = 0 then 1 else 0) := by
  have hlen : h + 1 < S.length := by
    have hpos := length_dumpData h S
    omega
  have hname : (withName (dumpData h S) (padName A)).length = 7 * (S.length - 1 - h) / 8 :=
    (length_withName (length_padName A) hU).trans (length_dumpData h S)
  rw [renamed, List.length_append, List.length_append, length_slice, List.length_singleton]
  split
  next h8 =>
    rw [length_pack7, hname]
    omega
  next h8 =>
    rw [length_pack7_of_strict h8 hname]
    omega

end

/-! ### RENAME and the commands on its OUT -/

section
variable {s t : State} {h : Nat} {o : Bytes} (hh : hasHeader Config.device s.msg h)
  (hU : 18 ≤ (dumpData h s.msg).length)
include hh hU

/-- R166: the OUT of a RENAME of a dump that carries a name field. -/
theorem out_of_exec_rename (hexec : exec .rename s = .next t) (ho : t.out = some o) :
    o = renamed h s.msg (dumpData h s.msg) s.arg := by
  obtain rfl := Host.Outcome.next.inj ((exec_rename_of_named hh hU).symm.trans hexec)
  exact (Option.some.inj ho).symm

/-- R171: header and data of the renamed message. -/
theorem renamed_header_and_data (hexec : exec .rename s = .next t) (ho : t.out = some o) :
    s.msg.take h = o.take h ∧ hasHeader Config.device o h ∧
      dumpData h o = replaceName (dumpData h s.msg) (paddedName s.arg) := by
  obtain rfl := out_of_exec_rename hh hU hexec ho
  have hlen := header_le_of_named hU
  have hpre := (take_renamed (A := s.arg) (dumpData h s.msg) hlen).symm
  exact ⟨hpre, (hasHeader_congr hpre _ (seven_le_of_hasHeader hh) h).1 hh, dumpData_renamed _ hlen⟩

end

/-- Settles O31: the packing of the data block's data is as long as the block, or one byte longer when the block is whole
groups. -/
theorem renameKeepsTheLengthOrAddsOneByte : Obligations.RenameKeepsTheLengthOrAddsOneByte := by
  intro s t h o hh hU hexec ho
  obtain rfl := out_of_exec_rename hh hU hexec ho
  have hblock : ((s.msg.take (s.msg.length - 1)).drop h).length = s.msg.length - 1 - h := by
    rw [List.length_drop, List.length_take_of_le (Nat.sub_le ..)]
  rw [hblock, length_renamed hU]

/-- Settles O32: the header decides the shape, and the data block unpacks to the new data. -/
theorem renamedDumpKeepsItsOtherData : Obligations.RenamedDumpKeepsItsOtherData := by
  intro s t h o hh hU hexec ho
  obtain ⟨hpre, hho, hdata⟩ := renamed_header_and_data hh hU hexec ho
  exact ⟨(shape_congr hpre _ (seven_le_of_hasHeader hh)).symm, hho, hdata⟩

/-- Settles O33: the name field of the new data is the new name, and GETNUM reads only the header, which is the old one. -/
theorem renamedDumpHasTheNewNameAndOldNumber : Obligations.RenamedDumpHasTheNewNameAndOldNumber := by
  intro s t h o hh hU hexec ho
  obtain ⟨hpre, hho, hdata⟩ := renamed_header_and_data hh hU hexec ho
  constructor
  · have hUo : 18 ≤ (dumpData h o).length := by
      rwa [hdata, length_replaceName hU (length_paddedName s.arg)]
    rw [exec_getname_of_named (s := { t with msg := o }) hho hUo, hdata,
      name_replaceName hU (length_paddedName s.arg)]
  · obtain ⟨r, hr⟩ := getnumEnding_of_hasHeader hh (header_le_of_named hU)
    have hro := (getnumEnding_congr hh hpre).symm.trans hr
    exact ⟨r, _, _, exec_of_classified hr, exec_of_classified (s := { t with msg := o }) hro, rfl, rfl, rfl, rfl⟩

/-- Settles O35: what is hashed is the same once the names are zeroed. -/
theorem fingerprintIgnoresNameAndSlot : Obligations.FingerprintIgnoresNameAndSlot := by
  intro s s' h h' hh hh' hU hU' htake hdrop
  refine ⟨_, _, exec_fprint_of_named hh hU, exec_fprint_of_named hh' hU', ?_⟩
  rw [replaceName_congr htake hdrop]
  rfl

/-- Settles O34: the new data differs from the old in its name only, which the fingerprint ignores (O35). -/
theorem renameKeepsTheFingerprint : Obligations.RenameKeepsTheFingerprint := by
  intro s t h o hh hU hexec ho
  obtain ⟨-, hho, hdata⟩ := renamed_header_and_data hh hU hexec ho
  have hname := length_paddedName s.arg
  refine fingerprintIgnoresNameAndSlot s { t with msg := o } h h hh hho hU ?_ ?_ ?_
  · rwa [hdata, length_replaceName hU hname]
  · rw [hdata, take_replaceName hU]
  · rw [hdata, drop_replaceName hU hname]

end Sys2Proof.Machine
end

section
/-! PROOFS. How a command ends (60_exceptions.md R200 to R203; O36, O38): an ending is a `finish` or a `raise`, and the
ending of each command decides its status. -/

namespace Sys2Proof.Machine

/-- R202: the codes of the error statuses. -/
theorem ErrorStatus.code_cases (x : ErrorStatus) : x.code = 1 ∨ x.code = 2 ∨ x.code = 3 ∨ x.code = 4 := by
  cases x <;> decide

/-- Settles O36, by the two ends of a command: `finish` writes its results, and `raise` an error code and cleared ones. -/
theorem everyCommandEndsWithFourResults : Obligations.EveryCommandEndsWithFourResults := by
  intro i s
  rw [exec_eq_endingOf]
  cases endingOf i s.msg s.arg with
  | ok r => exact ⟨r.out, r.res, r.fp, 0, rfl, .inl rfl⟩
  | error x => exact ⟨[], 0, 0, x.code, rfl, .inr ⟨x.code_cases, rfl, rfl, rfl⟩⟩

/-! ### The status of an ending (R203) -/

@[simp] theorem Ending.status_ok {w : Nat} (r : Results w) : Ending.status (.ok r) = 0 := rfl

@[simp] theorem Ending.status_error {w : Nat} (x : ErrorStatus) : Ending.status (w := w) (.error x) = x.code := rfl

/-- The status of an ending that is one error under a condition and a `finish` otherwise. -/
theorem Ending.status_eq_ite {w : Nat} {e : Ending w} {x : ErrorStatus} {p : Prop} [Decidable p]
    (herror : p → e = .error x) (hok : ¬ p → ∃ r, e = .ok r) : e.status = if p then x.code else 0 := by
  split
  next hp => rw [herror hp, Ending.status_error]
  next hp =>
    obtain ⟨r, hr⟩ := hok hp
    rw [hr, Ending.status_ok]

theorem status_of_exec {i : Instr} {s t : State} (h : exec i s = .next t) :
    t.status = some (endingOf i s.msg s.arg).status := by
  rw [exec_next h, State.writeResults_status]

/-- R203: the commands with no error end with OK. -/
theorem endingOf_status_of_no_error {i : Instr}
    (hi : i ∈ [.isebd, .ispd, .isbankpart, .matchreply, .classify, .pack7, .unpack7]) (msg arg : Bytes) :
    (endingOf i msg arg).status = 0 := by
  simp only [List.mem_cons, List.not_mem_nil, or_false] at hi
  obtain rfl | rfl | rfl | rfl | rfl | rfl | rfl := hi <;> rfl

section
variable (c : Config) (S A : Bytes)

theorem unpack7sEnding_status : (unpack7sEnding c S).status = if S.length % 8 ≠ 0 then 0 else 3 := by
  simp only [unpack7sEnding, strictLenOK_iff]
  split <;> rfl

variable {c S} {h : Nat} (hh : hasHeader c S h)
include hh

theorem getnameEnding_status_of_hasHeader :
    (getnameEnding c S).status = if (dumpData h S).length < 18 then 2 else 0 :=
  Ending.status_eq_ite (fun hU => getnameEnding_of_error (namedDump_of_short hh hU))
    fun hU => ⟨_, getnameEnding_of_ok (namedDump_of_named hh (not_lt.1 hU))⟩

theorem renameEnding_status_of_hasHeader :
    (renameEnding c S A).status = if (dumpData h S).length < 18 then 2 else 0 :=
  Ending.status_eq_ite (fun hU => renameEnding_of_error (namedDump_of_short hh hU) A)
    fun hU => ⟨_, renameEnding_of_ok (namedDump_of_named hh (not_lt.1 hU)) A⟩

theorem fprintEnding_status_of_hasHeader :
    (fprintEnding c S).status = if (dumpData h S).length < 18 then 2 else 0 :=
  Ending.status_eq_ite (fprintEnding_of_short hh) fun hU => ⟨_, fprintEnding_of_named hh (not_lt.1 hU)⟩

end

theorem getnumEnding_status_of_looksPD {c : Config} {S : Bytes} (hp : looksPD c S) :
    (getnumEnding c S).status = if S.length < 8 then 2 else 0 :=
  Ending.status_eq_ite (fun hlen => (getnumEnding_of_looksPD hp).trans (if_pos hlen))
    fun hlen => ⟨_, (getnumEnding_of_looksPD hp).trans (if_neg hlen)⟩

/-- Settles O38: the status is that of the command's ending, row by row of R203's table. -/
theorem statusOfEachCommand : Obligations.StatusOfEachCommand := by
  intro i s t hexec
  rw [status_of_exec hexec]
  simp only [Option.some.injEq]
  refine ⟨fun hi => endingOf_status_of_no_error hi _ _, ?_, ?_, ?_, ?_, ?_, ?_, ?_⟩
  · rintro rfl
    exact unpack7sEnding_status _ _
  · rintro (rfl | rfl) h hh
    · exact getnameEnding_status_of_hasHeader hh
    · exact renameEnding_status_of_hasHeader _ hh
  · rintro (rfl | rfl | rfl) he hp
    · exact congrArg Ending.status (getnameEnding_of_error (namedDump_of_not_looks he hp))
    · exact congrArg Ending.status (renameEnding_of_error (namedDump_of_not_looks he hp) _)
    · exact congrArg Ending.status (getnumEnding_of_other (shape_of_not_looks he hp))
  · rintro rfl he
    exact congrArg Ending.status (getnumEnding_of_looksEBD he)
  · rintro rfl hp
    exact getnumEnding_status_of_looksPD hp
  · rintro rfl he hp
    exact congrArg Ending.status (fprintEnding_of_other (shape_of_not_looks he hp))
  · rintro rfl h hh
    exact fprintEnding_status_of_hasHeader hh

end Sys2Proof.Machine
end

section
/-! PROOFS. What changes a register (60_exceptions.md R214; O49, O50): an idle step changes nothing, and each line changes
the registers it names. -/

namespace Sys2Proof.Machine

/-- Settles O49: the step of an empty script. -/
theorem idleBlockHoldsItsRegisters : Obligations.IdleBlockHoldsItsRegisters :=
  fun _ hscript => step_nil hscript

/-- R214: each register is as it was, or the line is one of those that write it. -/
theorem hostLine_register_cases {line : ScriptLine} {s t : State} (h : hostLine line s = .next t) :
    (t.msg = s.msg ∨ line = .reset ∨ ∃ data, line = .loadMsg data) ∧
    (t.arg = s.arg ∨ line = .reset ∨ (∃ data, line = .loadArg data) ∨ ∃ text, line = .loadArgText text) ∧
    ((t.cmd = s.cmd ∧ t.results = s.results) ∨ line = .reset ∨ (∃ w, line = .cmd w) ∨ ∃ i, line = .command i) := by
  obtain ⟨w, e, hcmd, rfl⟩ | ⟨data, hload, -, rfl⟩ | ⟨data, hload, -, rfl⟩ | ⟨r, v, -, -, rfl⟩ | ⟨hreset, -⟩ |
    ⟨data, -, -, rfl⟩ | ⟨r, v, -, rfl⟩ := hostLine_cases h
  · have hline : (∃ w, line = .cmd w) ∨ ∃ i, line = .command i :=
      hcmd.imp (fun hw => ⟨w, hw⟩) fun ⟨i, hi, _⟩ => ⟨i, hi⟩
    exact ⟨.inl (State.endCommand_msg _ _), .inl (State.endCommand_arg _ _), .inr (.inr hline)⟩
  · exact ⟨.inr (.inr ⟨data, hload⟩), .inl rfl, .inl ⟨rfl, rfl⟩⟩
  · have hline : (∃ data, line = .loadArg data) ∨ ∃ text, line = .loadArgText text :=
      hload.imp (fun hdata => ⟨data, hdata⟩) fun ⟨text, htext, _⟩ => ⟨text, htext⟩
    exact ⟨.inl rfl, .inr (.inr hline), .inl ⟨rfl, rfl⟩⟩
  · exact ⟨.inl rfl, .inl rfl, .inl ⟨rfl, rfl⟩⟩
  · exact ⟨.inr (.inl hreset), .inr (.inl hreset), .inr (.inl hreset)⟩
  · exact ⟨.inl rfl, .inl rfl, .inl ⟨rfl, rfl⟩⟩
  · exact ⟨.inl rfl, .inl rfl, .inl ⟨rfl, rfl⟩⟩

/-- Settles O50: a register that is not as it was was written by one of its lines. -/
theorem onlyTheNamedLinesChangeARegister : Obligations.OnlyTheNamedLinesChangeARegister := by
  intro s t line rest hscript hstep
  rw [step_cons hscript] at hstep
  obtain ⟨hmsg, harg, hcmd⟩ := hostLine_register_cases hstep
  exact ⟨hmsg.resolve_left, harg.resolve_left, fun hne => hcmd.resolve_left (not_and_or.2 hne)⟩

end Sys2Proof.Machine
end

section
/-! PROOFS. Decoding and encoding are inverse (30_encoding.md R60 to R62, O3). -/

namespace Sys2Proof.Machine

/-- R60: a command is its code's one byte, and what follows it is left over. -/
theorem decodeBytes_encode (i : Instr) (rest : Bytes) : decodeBytes (encode i :: rest) = .ok (i, rest) := by
  simp only [decodeBytes, decode_encode]

/-- Settles O3: each direction is a law of the opcode map. -/
theorem decodeAndEncodeAgree : Obligations.DecodeAndEncodeAgree :=
  ⟨decodeBytes_encode, fun _ _ => encode_of_decode⟩

end Sys2Proof.Machine
end

section
/-! PROOFS. The classifier's predicates exclude each other (40_classifier.md R115, O12), so R109's order of tests does not
matter and CLASSIFY's tag agrees with the predicate commands (R116, O13). -/

namespace Sys2Proof.Machine

/-! ### Any two preambles differ in a byte (R115) -/

/-- Two sequences that differ in a byte both have do not begin one message. -/
theorem not_hasPrefix_of_getElem_ne {S T T' : Bytes} (i : Nat) (hi : i < T.length) (hi' : i < T'.length)
    (hne : T[i] ≠ T'[i]) (h : hasPrefix S T) : ¬ hasPrefix S T' := by
  intro h'
  have hT : T <+: S := List.prefix_iff_eq_take.2 h.symm
  have hT' : T' <+: S := List.prefix_iff_eq_take.2 h'.symm
  exact hne ((hT.getElem hi).trans (hT'.getElem hi').symm)

section
variable {c : Config} {S : Bytes}

/-- R231: byte 1 of a reply is 0x7E, which a legal MFR does not begin with. -/
theorem not_hasPrefix_mfr_of_looksReply (h : looksReply c S) (T : Bytes) : ¬ hasPrefix S (c.sox :: c.mfr0 :: T) :=
  not_hasPrefix_of_getElem_ne 1 (by simp) (by simp) (by simpa using c.mfr0_ne.symm) h

theorem not_looksEBD_of_looksReply (h : looksReply c S) : ¬ looksEBD c S :=
  fun he => not_hasPrefix_mfr_of_looksReply h _ he.2

theorem not_looksPD_of_looksReply (h : looksReply c S) : ¬ looksPD c S :=
  fun hp => not_hasPrefix_mfr_of_looksReply h _ hp.2

theorem not_looksBDR_of_looksReply (h : looksReply c S) : ¬ looksBDR c S :=
  fun hb => not_hasPrefix_mfr_of_looksReply h _ hb.2

/-- R101: byte 5 is 0x02 in the one preamble and 0x0A in the other. -/
theorem not_looksBDR_of_looksEBD (h : looksEBD c S) : ¬ looksBDR c S :=
  fun hb => not_hasPrefix_of_getElem_ne 5 (by simp) (by simp) (by simp) h.2 hb.2

/-- R101: byte 5 is 0x00 in the one preamble and 0x0A in the other. -/
theorem not_looksBDR_of_looksPD (h : looksPD c S) : ¬ looksBDR c S :=
  fun hb => not_hasPrefix_of_getElem_ne 5 (by simp) (by simp) (by simp) h.2 hb.2

theorem not_looksPD_of_looksEBD (h : looksEBD c S) : ¬ looksPD c S :=
  fun hp => not_looksEBD_of_looksPD hp h

end

/-- Of Booleans that exclude each other at most one holds. -/
theorem countP_id_le_one_of_pairwise {l : List Bool} (h : l.Pairwise fun a b => a = true → b = false) :
    l.countP id ≤ 1 := by
  induction l with
  | nil => simp
  | cons a l ih =>
    obtain ⟨ha, hl⟩ := List.pairwise_cons.1 h
    cases a with
    | false => simpa using ih hl
    | true =>
      have hzero : l.countP id = 0 := List.countP_eq_zero.2 fun b hb => by simp [ha b hb rfl]
      simp [hzero]

/-- R115, pair by pair. -/
theorem predicates_pairwise (c : Config) (S : Bytes) :
    [inqMatch c S, isEBD c S, isPD c S, isBDR c S].Pairwise fun a b => a = true → b = false := by
  simp only [← Bool.not_eq_true, List.pairwise_cons, List.forall_mem_cons, inqMatch_iff, isEBD_iff, isPD_iff, isBDR_iff]
  exact ⟨⟨not_looksEBD_of_looksReply, not_looksPD_of_looksReply, not_looksBDR_of_looksReply, nofun⟩,
    ⟨not_looksPD_of_looksEBD, not_looksBDR_of_looksEBD, nofun⟩, ⟨not_looksBDR_of_looksPD, nofun⟩, nofun, .nil⟩

/-- Settles O12: no two of the four predicates hold together. -/
theorem predicatesExcludeEachOther : Obligations.PredicatesExcludeEachOther :=
  fun c S => countP_id_le_one_of_pairwise (predicates_pairwise c S)

/-! ### The tag of CLASSIFY (R108, R116) -/

/-- R116: since the tests exclude each other, each tag says that its own test holds. -/
theorem tag_kind_iff (c : Config) (S : Bytes) :
    let tag := (kind c S).tag.extractLsb' 0 4
    (tag = 2#4 ↔ looksEBD c S) ∧ (tag = 3#4 ↔ looksPD c S ∧ 8 ≤ S.length) ∧ (tag = 4#4 ↔ looksBDR c S) ∧
      (tag = 1#4 ↔ looksReply c S) := by
  rw [kind_eq_ite]
  split_ifs with hr he hp hb
  · simpa [MessageKind.tag, not_looksEBD_of_looksReply hr, not_looksPD_of_looksReply hr,
      not_looksBDR_of_looksReply hr] using hr
  · simpa [MessageKind.tag, hr, not_looksPD_of_looksEBD he, not_looksBDR_of_looksEBD he] using he
  · simpa [MessageKind.tag, hr, he, not_looksBDR_of_looksPD hp.1] using hp
  · simpa [MessageKind.tag, hr, he, hp] using hb
  · simp [MessageKind.tag, hr, he, hp, hb]

/-- Settles O13: the low bits of RES are the kind's tag, and each predicate command gives the test that the tag names. -/
theorem classifyAgreesWithThePredicates : Obligations.ClassifyAgreesWithThePredicates := by
  intro s
  refine ⟨_, isEBD _ s.msg, isPD _ s.msg, inqMatch _ s.msg, _, _, _, _, exec_of_classified rfl, exec_of_classified rfl,
    exec_of_classified rfl, exec_of_classified rfl, rfl, rfl, rfl, rfl, ?_⟩
  rw [resKind_low _ _ _ (by decide), isEBD_iff, isPD_iff, inqMatch_iff]
  exact tag_kind_iff Config.device s.msg

end Sys2Proof.Machine
end
